-- ==== Sys2Proof/Word.lean ====
section
/-! DEFINITION. The fixed-width words of the block (R5, R6): phase, sample word and command header.
Bit 0 is the least significant bit of every one of them (R6). -/

namespace Sys2Proof

/-- The 2-bit phase one encoder presents in one sample (R9, `PHASE_WIDTH` = 2). -/
abbrev Phase := BitVec 2

/-- The 4-bit sample word (R77, `SAMPLE_WIDTH` = 4): encoder 0 in bits 1..0, encoder 1 in bits 3..2. -/
abbrev Sample := BitVec 4

/-- The 16-bit command header `H` (R70, R71). -/
abbrev Header := BitVec 16

/-- The 4-bit transition index of R101. -/
abbrev TransitionIndex := BitVec 4

end Sys2Proof
end

