-- ==== Sys2Proof/Config.lean ====
section
/-! DEFINITION. What an implementation fixes (R5) and the values the spec leaves free.

The widths are parameters of the model: uninterpreted constants, so that whatever is proved of the machine is proved of
it at every value R5 allows (log entries 1 and 2). The functions of accumulator values and of line identifiers are
written for an arbitrary width as well, so that the reference vectors (W = 32, 8-bit identifiers) can be run on them.
The opaque constants have no body: nothing can be proved about the values they give. -/

namespace Sys2Proof

/-- By how much `ACC_WIDTH` exceeds 4, the least value R5 allows: any number. Log entry 1. -/
opaque Config.accWidthAboveFour : Nat

/-- `ACC_WIDTH`, the width W of each accumulator, position output and seek operand: OPEN with W >= 4 (R5, P1, D5). -/
def Config.accWidth : Nat := Config.accWidthAboveFour + 4

/-- `LINE_ID_WIDTH`: OPEN (R5, P3, D26). Log entry 2. -/
opaque Config.lineIdWidth : Nat

/-- A value of accumulator width: an accumulator, a position, a seek operand (R5, R54). -/
abbrev Acc := BitVec Config.accWidth

/-- One hardware line identifier (R5, R70). -/
abbrev LineId := BitVec Config.lineIdWidth

/-- Four line identifiers of any width. -/
structure LinesOf (L : Nat) where
  l0 : BitVec L
  l1 : BitVec L
  l2 : BitVec L
  l3 : BitVec L
deriving DecidableEq, Repr

/-- The four lines of a construction, `L0` to `L3` (R70, R161); line `L_i` drives sample bit i (R77). -/
abbrev Lines := LinesOf Config.lineIdWidth

/-- FREE VALUE: what the channel answers to the n-th question `ChanValidate(L)` that the model leaves open
(R191: a model takes it as an input). Log entry 7. -/
opaque Config.chanValidate : Nat → Lines → Bool

/-- FREE VALUE: what the channel answers to the n-th `ChanRelease()` that the model leaves open (R190). Log entry 8. -/
opaque Config.chanRelease : Nat → Bool

/-- FREE VALUE: the FIFO after the producer appends to a full one; the policy is the channel's own
(P2, R190, N9). Log entry 9. -/
opaque Config.fifoWhenFull : Nat → List Sample → Sample → List Sample

/-- FREE VALUE: the FIFO after a failed release (U5: the channel's state after it is any value). Log entry 10. -/
opaque Config.fifoAfterFailedRelease : Nat → List Sample

/-- FREE VALUE: the line binding after a failed release (U5, R166). Log entry 10. -/
opaque Config.boundAfterFailedRelease : Nat → Option Lines

end Sys2Proof
end

