-- ==== Sys2Proof/Syntax.lean ====
section
/-! DEFINITION. The six commands of the block (R72; spec/opcode_table.json), and a command as the host presents it
on the command port (R70). -/

namespace Sys2Proof

/-- One constructor per row of the opcode table. An instruction carries the fields its row owns (R73) and the
operand ports it uses (R70, R76). -/
inductive Instr where
  /-- `NOP` (R160). -/
  | nop
  /-- `CONSUME s` (R126): apply one host-supplied sample word. -/
  | consume (smp : Sample)
  /-- `READ` (R141): drain the channel, then return both positions. -/
  | read
  /-- `SEEK sel, v0, v1` (R145): bit 0 of `sel` selects encoder 0 (V0), bit 1 encoder 1 (V1). -/
  | seek (sel : BitVec 2) (v0 v1 : Acc)
  /-- `CONFIGURE l0, l1, l2, l3` (R161). -/
  | configure (l0 l1 l2 l3 : LineId)
  /-- `RELEASE` (R164). -/
  | release
deriving DecidableEq, Repr

/-- What the host presents in one transfer: the header and the operand ports sampled with it (R70). -/
structure Command where
  header : Header
  v0 : Acc
  v1 : Acc
  l0 : LineId
  l1 : LineId
  l2 : LineId
  l3 : LineId
deriving DecidableEq, Repr

/-- A header presented with every operand port at 0 (R80, `.word`). -/
def Command.ofHeader (h : Header) : Command :=
  { header := h, v0 := 0, v1 := 0, l0 := 0, l1 := 0, l2 := 0, l3 := 0 }

end Sys2Proof
end

