-- ==== Sys2Proof/WellFormed.lean ====
section
/-! DEFINITION. Well-formedness of an instruction. Field widths hold by type; what remains is R80's rule that a seek
value whose `sel` bit is 0 is not given and its port drives 0. -/

namespace Sys2Proof

/-- A seek value that its `sel` bit does not select is 0 (R80: "a value whose `sel` bit is 0 is written `_` and
drives 0"). -/
def seekPortOk {W : Nat} (selected : Bool) (v : BitVec W) : Bool := selected || v == 0

/-- An instruction in the form an assembler line gives it (R80). -/
def Instr.wellFormed : Instr → Bool
  | .nop => true
  | .consume _ => true
  | .read => true
  | .seek sel v0 v1 => seekPortOk (sel.getLsbD 0) v0 && seekPortOk (sel.getLsbD 1) v1
  | .configure _ _ _ _ => true
  | .release => true

end Sys2Proof
end

