-- ==== Sys2Proof/Decode.lean ====
section
/-! DEFINITION. Decoding a command header (R71 to R75) and encoding an instruction (R80).

Decoding is total (R75): a command is one of the six instructions, an illegal opcode, or a header with a
non-zero reserved or unused bit. -/

namespace Sys2Proof

/-- The six operations of the opcode map (R72). -/
inductive Op where
  | nop | consume | read | seek | configure | release
deriving DecidableEq, Repr

/-- One row of R73: a header belongs to `op` when `header AND mask = pattern`. -/
structure OpcodeRow where
  op : Op
  pattern : Header
  mask : Header
deriving DecidableEq, Repr

/-- The match and mask table of R73, in the table's order. -/
def opcodeRows : List OpcodeRow :=
  [ ⟨.nop,       0x0000#16, 0xFFFF#16⟩,
    ⟨.consume,   0x0001#16, 0xFF0F#16⟩,
    ⟨.read,      0x0002#16, 0xFFFF#16⟩,
    ⟨.seek,      0x0003#16, 0xFCFF#16⟩,
    ⟨.configure, 0x0004#16, 0xFFFF#16⟩,
    ⟨.release,   0x0005#16, 0xFFFF#16⟩ ]

/-- Whether a header is selected by a row (R73). -/
def OpcodeRow.selects (r : OpcodeRow) (h : Header) : Bool := h &&& r.mask == r.pattern

/-- `op = H[2:0]` (R71). -/
def opField (h : Header) : BitVec 3 := h.extractLsb' 0 3

/-- `smp = H[7:4]` (R71, R76). -/
def smpField (h : Header) : Sample := h.extractLsb' 4 4

/-- `sel = H[9:8]` (R71, R76). -/
def selField (h : Header) : BitVec 2 := h.extractLsb' 8 2

/-- `op` is `0b110` or `0b111`: `H[2:1] = 0b11` (R74, R75). -/
def illegalOpcode (h : Header) : Bool := h.extractLsb' 1 2 == 0b11#2

/-- A seek port is used only when its `sel` bit is 1; otherwise its value is ignored (R70, R76). -/
def usedPort {W : Nat} (selected : Bool) (v : BitVec W) : BitVec W := if selected then v else 0

/-- The instruction a command's header and ports stand for, once its operation is known (R76). -/
def assembleOperands (op : Op) (c : Command) : Instr :=
  match op with
  | .nop => .nop
  | .consume => .consume (smpField c.header)
  | .read => .read
  | .seek =>
    let sel := selField c.header
    .seek sel (usedPort (sel.getLsbD 0) c.v0) (usedPort (sel.getLsbD 1) c.v1)
  | .configure => .configure c.l0 c.l1 c.l2 c.l3
  | .release => .release

/-- What a command decodes to: exactly one of three things (R75). -/
inductive Decoded where
  | instr (i : Instr)
  /-- `op` is `0b110` or `0b111`, whatever the other bits hold (R74). -/
  | illegalOpcode
  /-- A legal opcode with a non-zero reserved or unused header bit (R73). -/
  | reservedNonzero
deriving DecidableEq, Repr

/-- The decoder of R75. -/
def decode (c : Command) : Decoded :=
  if illegalOpcode c.header then .illegalOpcode
  else
    match opcodeRows.find? (fun r => r.selects c.header) with
    | some r => .instr (assembleOperands r.op c)
    | none => .reservedNonzero

/-- The header of an instruction (R80). -/
def encodeHeader : Instr → Header
  | .nop => 0x0000#16
  | .consume smp => 0x0001#16 ||| (smp.zeroExtend 16 <<< 4)
  | .read => 0x0002#16
  | .seek sel _ _ => 0x0003#16 ||| (sel.zeroExtend 16 <<< 8)
  | .configure _ _ _ _ => 0x0004#16
  | .release => 0x0005#16

/-- The command of an instruction: its header, its operands on their ports, every other port 0 (R80). -/
def encode (i : Instr) : Command :=
  match i with
  | .nop => .ofHeader (encodeHeader .nop)
  | .consume smp => .ofHeader (encodeHeader (.consume smp))
  | .read => .ofHeader (encodeHeader .read)
  | .seek sel v0 v1 => { Command.ofHeader (encodeHeader (.seek sel v0 v1)) with v0 := v0, v1 := v1 }
  | .configure l0 l1 l2 l3 =>
    { Command.ofHeader (encodeHeader (.configure l0 l1 l2 l3)) with l0 := l0, l1 := l1, l2 := l2, l3 := l3 }
  | .release => .ofHeader (encodeHeader .release)

/-- The instruction in a table word of `nbits` bits: the word is the header, every operand port is 0. -/
def decodeTableWord (nbits w : Nat) : Option Instr :=
  if nbits ≤ 16 ∧ w < 2 ^ nbits then
    match decode (.ofHeader (BitVec.ofNat 16 w)) with
    | .instr i => some i
    | .illegalOpcode => none
    | .reservedNonzero => none
  else none

end Sys2Proof
end

