-- ==== Sys2Proof/Machine/State.lean ====
section
/-! DEFINITION. The state of the machine: the block's registers (R21), its response port (R76), the external sampling
channel (R34) and the moves the outside world still makes (R20). All of it is plain data. -/

namespace Sys2Proof.Machine

/-- The register set of one encoder (R21 to R25), for an accumulator of any width. -/
structure Encoder (W : Nat) where
  /-- `prev[e]`, the phase of the last applied sample (R23). -/
  prev : Phase
  /-- `hint[e]`, 1 when the last non-zero delta was positive (R24). -/
  hint : Bool
  /-- `acc[e]`, the quarter-count accumulator, two's complement (R25). -/
  acc : BitVec W
deriving DecidableEq, Repr

/-- The values of `life` (R28). -/
inductive Life where
  | unconfigured
  | active
  | released
  | faulted
deriving DecidableEq, Repr

/-- The fault causes of R181 that a command can raise. -/
inductive Cause where
  | illegalOpcode
  | reservedNonzero
  | notConfigured
  | useAfterRelease
  | alreadyActive
  | teardownFailure
deriving DecidableEq, Repr

/-- The response statuses that are ever driven (R182). -/
inductive Status where
  | ok
  | configError
  | fault
deriving DecidableEq, Repr

/-- One drive of the response port (R76): `rsp_status`, `rsp_pos0`, `rsp_pos1`. -/
structure Response where
  status : Status
  pos0 : Acc
  pos1 : Acc
deriving DecidableEq, Repr

/-- How the channel answers `ChanValidate`: an input of the model (R191). Log entry 7. -/
inductive ValidateAnswer where
  /-- The reference channel of R191: true exactly on four consecutive lines. -/
  | reference
  /-- The channel answers `b`, whatever the lines. -/
  | fixed (b : Bool)
  /-- Left open: the answer is the free value `Config.chanValidate`. -/
  | free
deriving DecidableEq, Repr

/-- How the channel answers `ChanRelease` (R190): an input of the model. Log entry 8. -/
inductive ReleaseAnswer where
  /-- The channel answers `b`. -/
  | fixed (b : Bool)
  /-- Left open: the answer is the free value `Config.chanRelease`. -/
  | free
deriving DecidableEq, Repr

/-- The external sampling channel, as the block and the producer meet it (R34, R189, R190). None of it is a
register of the block. -/
structure Channel where
  /-- The buffered samples, oldest first (R58, R190). -/
  fifo : List Sample
  /-- By how much `FIFO_DEPTH` exceeds 1, the least value R5 allows (P2). Log entry 3. -/
  depthAboveOne : Nat
  /-- The lines the channel is bound to (R190, item (d)). -/
  bound : Option Lines
  /-- How `ChanValidate` answers. -/
  validate : ValidateAnswer
  /-- How `ChanRelease` answers. -/
  release : ReleaseAnswer
  /-- MODEL's own: how many free values have been drawn; the next draw reads the opaque constant here. -/
  draws : Nat
deriving DecidableEq, Repr

/-- `FIFO_DEPTH`, the channel's own parameter, at least 1 (R5, P2). -/
def Channel.depth (ch : Channel) : Nat := ch.depthAboveOne + 1

/-- One move of the world around the block (R20). -/
inductive Event where
  /-- The host presents a command; it waits while the command port is busy (R31, R57). -/
  | command (c : Command)
  /-- The block has its turn: a drain step while a READ is in progress (R142), else nothing. -/
  | turn
  /-- The producer appends one sample to the channel's FIFO (R20, R189). -/
  | sample (w : Sample)
  /-- Hardware reset is asserted (R210). -/
  | reset
  /-- The channel or the platform changes the channel on its own (R190, R211, P5). -/
  | platform (ch : Channel)
deriving DecidableEq, Repr

/-- The whole machine. The first group is R21's register table; `rsp` is the response port of R76; `chan` is the
channel of R34; `script` and `cycle` are MODEL's own and say which agent moves next (R20, log entry 5). -/
structure State where
  /-- Encoder 0's registers `prev[0]`, `hint[0]`, `acc[0]` (R21). -/
  enc0 : Encoder Config.accWidth
  /-- Encoder 1's registers `prev[1]`, `hint[1]`, `acc[1]` (R21). -/
  enc1 : Encoder Config.accWidth
  /-- `life` (R28). -/
  life : Life
  /-- `fault_cause`, 3 bits (R29). -/
  faultCause : BitVec 3
  /-- `fault_cmd`, 16 bits (R30). -/
  faultCmd : Header
  /-- `drain_busy` (R31). -/
  drainBusy : Bool
  /-- What the last step drove on the response port, `none` when it responded nothing (R76, log entry 6). -/
  rsp : Option Response
  /-- The external sampling channel (R34). -/
  chan : Channel
  /-- MODEL's own: the moves still to come, first first. -/
  script : List Event
  /-- MODEL's own: the moves the world repeats for ever once `script` is empty. -/
  cycle : List Event
deriving DecidableEq, Repr

/-- Reasons a step stops the machine. None: every fault of this block is the fault entry of R180, which is a next
state; nothing raises a `Fault`. Safe. -/
inductive Fault : Type
deriving DecidableEq, Repr

/-- Reasons a step has no meaning. -/
inductive Refusal where
  /-- Raised by an arm of `exec` whose instruction has no meaning yet; no arm of this model is such. Safe. -/
  | notModelled (mnemonic : String)
deriving DecidableEq, Repr

/-- The encoder registers at reset and after a construction: zero (R21, R163, R210). -/
def Encoder.zero {W : Nat} : Encoder W := { prev := 0b00, hint := false, acc := 0 }

/-- The channel the model starts from. It is outside the block and the spec states no such values: DESIGN CHOICE
(log entries 3, 7, 8 and 22), unsafe. -/
def Channel.initial : Channel :=
  { fifo := [], depthAboveOne := 7, bound := none, validate := .reference, release := .free, draws := 0 }

/-- The machine right after reset: every register at the reset value of R21 and R210, no response driven, and nothing
placed in the outside world. -/
def State.reset : State :=
  { enc0 := .zero
    enc1 := .zero
    life := .unconfigured
    faultCause := 0
    faultCmd := 0x0000
    drainBusy := false
    rsp := none
    chan := .initial
    script := []
    cycle := [] }

end Sys2Proof.Machine
end

