-- ==== Sys2Proof/Machine/Lut.lean ====
section
/-! DEFINITION. The transition arbiter: the lookup table of spec/40_lookup_table.md. -/

namespace Sys2Proof.Machine

/-- Table 40-1 (R102): entry i is the pair (LUT(0, i), LUT(1, i)). -/
def lutTable : List (Int × Int) :=
  [ (0, 0),     -- 00 -> 00
    (1, 1),     -- 00 -> 01
    (-1, -1),   -- 00 -> 10
    (-2, 2),    -- 00 -> 11
    (-1, -1),   -- 01 -> 00
    (0, 0),     -- 01 -> 01
    (-2, 2),    -- 01 -> 10
    (1, 1),     -- 01 -> 11
    (1, 1),     -- 10 -> 00
    (-2, 2),    -- 10 -> 01
    (0, 0),     -- 10 -> 10
    (-1, -1),   -- 10 -> 11
    (-2, 2),    -- 11 -> 00
    (-1, -1),   -- 11 -> 01
    (1, 1),     -- 11 -> 10
    (0, 0) ]    -- 11 -> 11

/-- `LUT(h, i) = TABLE_40_1[i][h]` (R100). The table has an entry for every index, so the default is never used. -/
def lut (h : Bool) (i : TransitionIndex) : Int :=
  let entry := lutTable.getD i.toNat (0, 0)
  if h then entry.2 else entry.1

/-- The table stored as one 32-entry read-only array, the hint = 0 half at addresses 0 to 15 (R51, R105). -/
def lutRom : List Int := lutTable.map Prod.fst ++ lutTable.map Prod.snd

/-- The ROM entry at a 5-bit address (R51, R105). -/
def romEntry (a : BitVec 5) : Int := lutRom.getD a.toNat 0

end Sys2Proof.Machine
end

