-- ==== Sys2Proof/Machine/Operands.lean ====
section
/-! DEFINITION. Operand forms and the values the block computes from them: phases of a sample (R77, R120), the transition
index (R101), the packed view and the ROM address (R26, R105), the delta at accumulator width (R122), the seek scaling
(R145) and the reported position (R140). Accumulator arithmetic is written for every width W. -/

namespace Sys2Proof.Machine

/-- `curr_0 = s[1:0]` (R120). -/
def phase0 (s : Sample) : Phase := s.extractLsb' 0 2

/-- `curr_1 = s[3:2]` (R120). -/
def phase1 (s : Sample) : Phase := s.extractLsb' 2 2

/-- The transition index `(prev << 2) | curr` (R101). -/
def transitionIndex (prev curr : Phase) : TransitionIndex := prev ++ curr

/-- The packed view `ST[e] = {hint, prev, 0b00}` (R26). -/
def Encoder.packed {W : Nat} (e : Encoder W) : BitVec 5 := BitVec.ofBool e.hint ++ e.prev ++ 0b00#2

/-- The lookup-table address `ST[e] | curr = {hint, prev, curr}` (R105). -/
def Encoder.romAddress {W : Nat} (e : Encoder W) (curr : Phase) : BitVec 5 := e.packed ||| curr.zeroExtend 5

/-- `(acc + sext_W(d)) mod 2^W` (R122). -/
def accumulate {W : Nat} (acc : BitVec W) (d : Int) : BitVec W := acc + BitVec.ofInt W d

/-- `(v << 2) mod 2^W` (R145). -/
def seekValue {W : Nat} (v : BitVec W) : BitVec W := v <<< 2

/-- `pos(acc) = asr(acc, 2)` (R140). -/
def position {W : Nat} (acc : BitVec W) : BitVec W := acc.sshiftRight 2

end Sys2Proof.Machine
end

