-- ==== Sys2Proof/Machine/Flags.lean ====
section
/-! DEFINITION. The block's only condition flag, the direction hint (R24, R123), and the codes its control registers and
ports carry (R28, R78, R181, R182). -/

namespace Sys2Proof.Machine

/-- The hint after a delta: 1 when positive, 0 when negative, held when zero (R123). -/
def nextHint (hint : Bool) (d : Int) : Bool := if d > 0 then true else if d < 0 then false else hint

/-- The encoding of `life` (R28). -/
def Life.code : Life → BitVec 2
  | .unconfigured => 0b00#2
  | .active => 0b01#2
  | .released => 0b10#2
  | .faulted => 0b11#2

/-- The fault cause codes of R181; 0 is NONE and 7 is never raised. -/
def Cause.code : Cause → BitVec 3
  | .illegalOpcode => 1#3
  | .reservedNonzero => 2#3
  | .notConfigured => 3#3
  | .useAfterRelease => 4#3
  | .alreadyActive => 5#3
  | .teardownFailure => 6#3

/-- The response status codes of R182; 3 is never driven. -/
def Status.code : Status → BitVec 2
  | .ok => 0#2
  | .configError => 1#2
  | .fault => 2#2

/-- `stat_life[1:0]` of the status port (R78). -/
def State.statLife (s : State) : BitVec 2 := s.life.code

/-- `stat_fault_cause[2:0]` of the status port (R78). -/
def State.statFaultCause (s : State) : BitVec 3 := s.faultCause

/-- `stat_fault_cmd[15:0]` of the status port (R78). -/
def State.statFaultCmd (s : State) : Header := s.faultCmd

/-- `rsp_status[1:0]` when the last step responded (R76). -/
def State.rspStatus (s : State) : Option (BitVec 2) := s.rsp.map fun r => r.status.code

end Sys2Proof.Machine
end

