-- ==== Sys2Proof/Machine/Chan.lean ====
section
/-! DEFINITION. The sampling channel's four primitives (R190), the reference validation predicate (R191) and the moves of the
producer and the platform on the channel (R20, R189, R211). -/

namespace Sys2Proof.Machine

/-- `ChanAvail()`: the FIFO holds at least one sample; no effect (R190, item (a)). -/
def chanAvail (ch : Channel) : Bool := !ch.fifo.isEmpty

/-- `ChanRead()`: the oldest sample, removed; there is none when the FIFO is empty (R190, item (b)). -/
def chanRead (ch : Channel) : Option (Sample × Channel) :=
  match ch.fifo with
  | [] => none
  | w :: rest => some (w, { ch with fifo := rest })

/-- The channel after a release that succeeded: unbound, and the samples still in the FIFO are lost with it
(R164, R190). DEDUCED (log entry 11). -/
def chanReleased (ch : Channel) : Channel := { ch with fifo := [], bound := none }

/-- The channel after a release that failed: its state is any value (U5, R166). Log entry 10. -/
def chanReleaseFailed (ch : Channel) : Channel :=
  { ch with
    fifo := (Config.fifoAfterFailedRelease ch.draws).take ch.depth
    bound := Config.boundAfterFailedRelease ch.draws
    validate := .free
    release := .free
    draws := ch.draws + 1 }

/-- The answer `ChanRelease()` gives next. -/
def releaseAnswer (ch : Channel) : Bool :=
  match ch.release with
  | .fixed b => b
  | .free => Config.chanRelease ch.draws

/-- The counter after a `ChanRelease()` question: a free answer is drawn once. -/
def drawnRelease (ch : Channel) : Channel :=
  match ch.release with
  | .fixed _ => ch
  | .free => { ch with draws := ch.draws + 1 }

/-- `ChanRelease()`: true if released, false on failure (R190, item (c)). -/
def chanRelease (ch : Channel) : Bool × Channel :=
  if releaseAnswer ch then (true, chanReleased (drawnRelease ch))
  else (false, chanReleaseFailed (drawnRelease ch))

/-- The reference channel's predicate: `L1 = L0 + 1`, `L2 = L0 + 2` and `L3 = L0 + 3`, as unsigned numbers (R191). -/
def referenceSequential {L : Nat} (l : LinesOf L) : Bool :=
  l.l1.toNat == l.l0.toNat + 1 && l.l2.toNat == l.l0.toNat + 2 && l.l3.toNat == l.l0.toNat + 3

/-- The answer `ChanValidate(L)` gives next: the channel's, never the block's (R191). -/
def validateAnswer (ch : Channel) (l : Lines) : Bool :=
  match ch.validate with
  | .reference => referenceSequential l
  | .fixed b => b
  | .free => Config.chanValidate ch.draws l

/-- The counter after a `ChanValidate` question: a free answer is drawn once. -/
def drawnValidate (ch : Channel) : Channel :=
  match ch.validate with
  | .reference => ch
  | .fixed _ => ch
  | .free => { ch with draws := ch.draws + 1 }

/-- `ChanValidate(L)`: on true the channel is bound to the lines; on false nothing is allocated (R190, item (d)). -/
def chanValidate (ch : Channel) (l : Lines) : Bool × Channel :=
  if validateAnswer ch l then (true, { drawnValidate ch with bound := some l })
  else (false, drawnValidate ch)

/-- The producer appends a sample. A FIFO that has room takes it last; what a full one does is the channel's own
policy, a free value that still fits the depth (R189, R190, P2, N9). Log entry 9. -/
def chanAppend (w : Sample) (ch : Channel) : Channel :=
  if ch.fifo.length < ch.depth then { ch with fifo := ch.fifo ++ [w] }
  else
    { ch with
      fifo := (Config.fifoWhenFull ch.draws ch.fifo w).take ch.depth
      draws := ch.draws + 1 }

/-- The channel after the platform or the channel itself changed it: the FIFO depth is fixed, and the free-value counter
never goes back (R190, R211, P5). Log entry 20. -/
def chanReplaced (new old : Channel) : Channel :=
  { new with fifo := new.fifo.take old.depth, depthAboveOne := old.depthAboveOne, draws := old.draws }

end Sys2Proof.Machine
end

