-- ==== Sys2Proof/Machine/Ops.lean ====
section
/-! DEFINITION. The shared operations over the block's registers: responding (R76), taking a fault (R180), the hardware
reset that alone leaves FAULTED (R186, R210), the per-sample update (R121 to R125), construction (R163), the READ
drain (R142, R143) and the checks before a command runs (R184). -/

namespace Sys2Proof.Machine

/-- `respond(status, p0, p1)` (R8, R76). -/
def respond (st : Status) (p0 p1 : Acc) (s : State) : State := { s with rsp := some ⟨st, p0, p1⟩ }

/-- `respond(OK, 0, 0)`, the response of every command that completes but READ (R76). -/
def respondOk (s : State) : State := respond .ok 0 0 s

/-- A step that responds nothing. -/
def quiet (s : State) : State := { s with rsp := none }

/-- FAULT ENTRY, `raise Fault(cause)` for the command whose header is `h` (R180): the cause and the header are
recorded, `life` becomes FAULTED, and nothing else the command would have written is written. -/
def raiseFault (cause : Cause) (h : Header) (s : State) : State :=
  respond .fault 0 0 { s with life := .faulted, faultCause := cause.code, faultCmd := h }

/-- HARDWARE RESET (R210), the only way out of FAULTED (R186): every register takes its reset value, a READ in
progress is abandoned with no response, and the channel is not touched (R211). -/
def hwReset (s : State) : State :=
  { s with
    enc0 := .zero
    enc1 := .zero
    life := .unconfigured
    faultCause := 0
    faultCmd := 0x0000
    drainBusy := false
    rsp := none }

/-- The delta of a phase, read with the hint as it stood before the sample (R121). -/
def delta {W : Nat} (e : Encoder W) (curr : Phase) : Int := lut e.hint (transitionIndex e.prev curr)

/-- `DecodeEncoder` (R121 to R124): the next registers of one encoder and the delta. -/
def decodeEncoder {W : Nat} (e : Encoder W) (curr : Phase) : Encoder W × Int :=
  let d := delta e curr
  ({ prev := curr, hint := nextHint e.hint d, acc := accumulate e.acc d }, d)

/-- `ApplySample(s)` (R125): both lanes in one step, neither reading the other (R27). -/
def applySample (w : Sample) (s : State) : State :=
  { s with
    enc0 := (decodeEncoder s.enc0 (phase0 w)).1
    enc1 := (decodeEncoder s.enc1 (phase1 w)).1 }

/-- `InitDecoder`, the construction state (R163). -/
def initDecoder (s : State) : State := { s with enc0 := .zero, enc1 := .zero }

/-- `ReadComplete` (R143): the port is free again and the response carries both positions, from one state. -/
def readComplete (s : State) : State :=
  respond .ok (position s.enc0.acc) (position s.enc1.acc) { s with drainBusy := false }

/-- `DrainStep` (R142): one sample popped and applied, or the READ completed when the channel reports empty. -/
def drainStep (s : State) : State :=
  match chanAvail s.chan, chanRead s.chan with
  | true, some (w, ch) => applySample w { s with chan := ch, rsp := none }
  | _, _ => readComplete s

/-- The lifecycle check of CONSUME, READ and SEEK (R167). -/
def needsDecoder : Life → Option Cause
  | .unconfigured => some .notConfigured
  | .active => none
  | .released => some .useAfterRelease
  | .faulted => none

/-- The lifecycle check of CONFIGURE (R167). -/
def needsNoDecoder : Life → Option Cause
  | .unconfigured => none
  | .active => some .alreadyActive
  | .released => none
  | .faulted => none

/-- The lifecycle check of RELEASE (R167): a second RELEASE runs (R165). -/
def needsConstruction : Life → Option Cause
  | .unconfigured => some .notConfigured
  | .active => none
  | .released => none
  | .faulted => none

/-- NOP has no lifecycle check (R160, R167). -/
def needsNothing : Life → Option Cause
  | .unconfigured => none
  | .active => none
  | .released => none
  | .faulted => none

/-- In FAULTED a command responds FAULT and changes nothing (R185). -/
def respondFaulted (s : State) : State := respond .fault 0 0 s

/-- The checks of R184 that depend on `life`: FAULTED first, then the command's lifecycle check, then its run. -/
def checked (check : Life → Option Cause) (h : Header) (run : State → State) (s : State) : State :=
  match s.life with
  | .faulted => respondFaulted s
  | life =>
    match check life with
    | some cause => raiseFault cause h s
    | none => run s

/-- A header that decodes to no instruction: FAULTED is checked first, then the encoding fault is raised (R184). -/
def rejectHeader (cause : Cause) (h : Header) (s : State) : State :=
  checked needsNothing h (raiseFault cause h) s

end Sys2Proof.Machine
end

