-- ==== Sys2Proof/Machine/Agents.lean ====
section
/-! DEFINITION. The moves of the agents around the command decoder (R20): taking the next move from the script, the block's
turn, the producer, the platform, and the faults of a header that decodes to no instruction. -/

namespace Sys2Proof.Machine

/-- The next move of the world and the state with that move taken. When the script is used up the world repeats
`cycle` for ever; with neither there is no move (log entry 5). -/
def nextMove (s : State) : Option (Event × State) :=
  match s.script, s.cycle with
  | e :: rest, _ => some (e, { s with script := rest })
  | [], e :: rest => some (e, { s with script := rest })
  | [], [] => none

/-- The block's turn: a drain step while a READ is in progress (R142); otherwise it waits for a command. -/
def blockTurn (s : State) : State := if s.drainBusy then drainStep s else quiet s

/-- The producer's step: one sample appended to the channel, no register of the block touched (R20, R189). -/
def producerStep (w : Sample) (s : State) : State := { s with chan := chanAppend w s.chan, rsp := none }

/-- The channel's or the platform's own step on the channel; no register of the block touched (R190, R211). -/
def platformStep (ch : Channel) (s : State) : State := { s with chan := chanReplaced ch s.chan, rsp := none }

/-- What the command port does with a command that is no instruction (R74, R73, R184). -/
def rejectIllegal (h : Header) (s : State) : State := rejectHeader .illegalOpcode h s

/-- As `rejectIllegal`, for a non-zero reserved or unused bit (R73, R184). -/
def rejectReserved (h : Header) (s : State) : State := rejectHeader .reservedNonzero h s

/-- A host command placed first among the moves, with the command port free to take it. -/
def placeCommand (c : Command) (s : State) : State :=
  { s with script := .command c :: s.script, drainBusy := false }

end Sys2Proof.Machine
end

