-- ==== Sys2Proof/Machine/Lifecycle.lean ====
section
/-! DEFINITION. The meanings of NOP, CONFIGURE and RELEASE (spec/43_lifecycle.md). -/

namespace Sys2Proof.Machine

/-- `NOP` (R160). -/
def execNop (s : State) : Host.Outcome State Fault Refusal :=
  .next (checked needsNothing (encodeHeader .nop) respondOk s)

/-- CONFIGURE past its checks (R161 to R163): the channel validates the lines; on false no register changes and the
response is CONFIG_ERROR, on true a fresh decoder is constructed. -/
def construct (l : Lines) (s : State) : State :=
  match chanValidate s.chan l with
  | (true, ch) => respondOk { initDecoder { s with chan := ch } with life := .active }
  | (false, ch) => respond .configError 0 0 { s with chan := ch }

/-- `CONFIGURE l0, l1, l2, l3` (R161). -/
def execConfigure (l0 l1 l2 l3 : LineId) (s : State) : Host.Outcome State Fault Refusal :=
  .next (checked needsNoDecoder (encodeHeader (.configure l0 l1 l2 l3)) (construct ⟨l0, l1, l2, l3⟩) s)

/-- RELEASE of an active decoder (R164, R166): the channel is released, or the block faults TEARDOWN_FAILURE. -/
def tearDown (s : State) : State :=
  match chanRelease s.chan with
  | (true, ch) => respondOk { s with chan := ch, life := .released }
  | (false, ch) => raiseFault .teardownFailure (encodeHeader .release) { s with chan := ch }

/-- RELEASE past its checks: a repeated RELEASE does nothing and does not ask the channel again (R165). -/
def releaseOrKeep (s : State) : State :=
  match s.life with
  | .released => respondOk s
  | _ => tearDown s

/-- `RELEASE` (R164). -/
def execRelease (s : State) : Host.Outcome State Fault Refusal :=
  .next (checked needsConstruction (encodeHeader .release) releaseOrKeep s)

end Sys2Proof.Machine
end

