-- ==== Sys2Proof/Machine/PositionAccess.lean ====
section
/-! DEFINITION. The meanings of READ and SEEK (spec/42_position_access.md). -/

namespace Sys2Proof.Machine

/-- The accepting step of READ (R141): the port becomes busy; the drain and the response follow in later steps. -/
def startDrain (s : State) : State := quiet { s with drainBusy := true }

/-- `READ` (R141). -/
def execRead (s : State) : Host.Outcome State Fault Refusal :=
  .next (checked needsDecoder (encodeHeader .read) startDrain s)

/-- The accumulator of an encoder after SEEK: overwritten when selected; phase and hint are left alone (R145, R146). -/
def seekEncoder {W : Nat} (selected : Bool) (v : BitVec W) (e : Encoder W) : Encoder W :=
  if selected then { e with acc := seekValue v } else e

/-- The writes of SEEK on both encoders (R145). -/
def seekBoth (sel : BitVec 2) (v0 v1 : Acc) (s : State) : State :=
  { s with
    enc0 := seekEncoder (sel.getLsbD 0) v0 s.enc0
    enc1 := seekEncoder (sel.getLsbD 1) v1 s.enc1 }

/-- `SEEK sel, v0, v1` (R145). -/
def execSeek (sel : BitVec 2) (v0 v1 : Acc) (s : State) : Host.Outcome State Fault Refusal :=
  .next (checked needsDecoder (encodeHeader (.seek sel v0 v1)) (fun s => respondOk (seekBoth sel v0 v1 s)) s)

end Sys2Proof.Machine
end

