-- ==== Sys2Proof/Machine/Sample.lean ====
section
/-! DEFINITION. The meaning of CONSUME (spec/41_sample_decode.md). -/

namespace Sys2Proof.Machine

/-- `CONSUME s` (R126): both lanes take the host's sample at once, ahead of any the channel holds (R59). -/
def execConsume (smp : Sample) (s : State) : Host.Outcome State Fault Refusal :=
  .next (checked needsDecoder (encodeHeader (.consume smp)) (fun s => respondOk (applySample smp s)) s)

end Sys2Proof.Machine
end

