-- ==== Sys2Proof/Machine/Dispatch.lean ====
section
/-! DEFINITION. One arm per instruction: which meaning runs. -/

namespace Sys2Proof.Machine

/-- The accepting step of a command that decoded to an instruction. -/
def exec (i : Instr) (s : State) : Host.Outcome State Fault Refusal :=
  match i with
  | .nop => Sys2Proof.Machine.execNop s
  | .consume smp => Sys2Proof.Machine.execConsume smp s
  | .read => Sys2Proof.Machine.execRead s
  | .seek sel v0 v1 => Sys2Proof.Machine.execSeek sel v0 v1 s
  | .configure l0 l1 l2 l3 => Sys2Proof.Machine.execConfigure l0 l1 l2 l3 s
  | .release => Sys2Proof.Machine.execRelease s

end Sys2Proof.Machine
end

