-- ==== Sys2Proof/Machine/Step.lean ====
section
/-! DEFINITION. One step of the machine: the agent whose move is next moves once (R20). -/

namespace Sys2Proof.Machine

/-- The block accepts a command: decode (R75), then run it or take the encoding's fault (R184). -/
def acceptCommand (c : Command) (s : State) : Host.Outcome State Fault Refusal :=
  match decode c with
  | .instr i => exec i s
  | .illegalOpcode => .next (rejectIllegal c.header s)
  | .reservedNonzero => .next (rejectReserved c.header s)

/-- One step. A command waits, untaken, while a READ is draining (R31, R57); with no move left the block has its turn. -/
def step (s : State) : Host.Outcome State Fault Refusal :=
  match nextMove s with
  | none => .next (blockTurn s)
  | some (.command c, s') => if s.drainBusy then .next (drainStep s) else acceptCommand c s'
  | some (.turn, s') => .next (blockTurn s')
  | some (.sample w, s') => .next (producerStep w s')
  | some (.reset, s') => .next (hwReset s')
  | some (.platform ch, s') => .next (platformStep ch s')

/-- The word of an instruction placed where the next step takes its command: on the command port, every operand port 0,
the port free (log entry 4). -/
def State.withFetchWord (s : State) (nbits w : Nat) : State :=
  placeCommand (.ofHeader (BitVec.ofNat 16 (w % 2 ^ nbits))) s

end Sys2Proof.Machine
end

