-- ==== Sys2Proof/Machine/Assembler.lean ====
section
/-! DEFINITION. The assembler syntax (R80) and the pseudo-instructions (R81): one line of text, as characters, to the command
it stands for. A tool of the host's side: the block never sees text. Log entry 17 lists its conventions. -/

namespace Sys2Proof.Machine

/-- The text before a comment, which starts with `;` (R80). -/
def stripComment (line : List Char) : List Char := line.takeWhile (· != ';')

/-- A character that separates the fields of a line. -/
def isSeparator (c : Char) : Bool := c == ' ' || c == ',' || c == '\t'

/-- The fields of a line: the runs of characters between separators. `cur` is the field being read, reversed. -/
def fieldsFrom (cur : List Char) : List Char → List (List Char)
  | [] => if cur.isEmpty then [] else [cur.reverse]
  | c :: rest =>
    if isSeparator c then
      if cur.isEmpty then fieldsFrom [] rest else cur.reverse :: fieldsFrom [] rest
    else fieldsFrom (c :: cur) rest

/-- The value of a digit, if it is one of the base. -/
def digitValue (base : Nat) (c : Char) : Option Nat :=
  let n := c.toNat
  let v :=
    if 48 ≤ n ∧ n ≤ 57 then some (n - 48)
    else if 97 ≤ n ∧ n ≤ 102 then some (n - 87)
    else if 65 ≤ n ∧ n ≤ 70 then some (n - 55)
    else none
  v.filter (· < base)

/-- Digits read from the most significant on. -/
def digitsValue (base : Nat) : Nat → List Char → Option Nat
  | acc, [] => some acc
  | acc, c :: rest =>
    match digitValue base c with
    | some d => digitsValue base (acc * base + d) rest
    | none => none

/-- A number of a base: at least one digit. -/
def numberOfBase (base : Nat) : List Char → Option Nat
  | [] => none
  | c :: rest => digitsValue base 0 (c :: rest)

/-- "Numbers are decimal, `0x` hex or `0b` binary" (R80). -/
def natField : List Char → Option Nat
  | '0' :: 'x' :: ds => numberOfBase 16 ds
  | '0' :: 'b' :: ds => numberOfBase 2 ds
  | ds => numberOfBase 10 ds

/-- A number with an optional minus sign (R80, R81: seek values are signed). -/
def intField : List Char → Option Int
  | '-' :: ds => (natField ds).map fun n => -(n : Int)
  | ds => (natField ds).map fun n => (n : Int)

/-- A natural number that fits w bits. -/
def bitsField (w : Nat) (t : List Char) : Option (BitVec w) :=
  match natField t with
  | some n => if n < 2 ^ w then some (BitVec.ofNat w n) else none
  | none => none

/-- A seek value: any number with a W-bit pattern. -/
def accField (W : Nat) (t : List Char) : Option (BitVec W) :=
  match intField t with
  | some v => if -(2 ^ (W - 1) : Int) ≤ v ∧ v < (2 ^ W : Int) then some (BitVec.ofInt W v) else none
  | none => none

/-- A seek value whose `sel` bit is 0 is written `_` and drives 0 (R80). -/
def seekField (W : Nat) (selected : Bool) (t : List Char) : Option (BitVec W) :=
  if selected then accField W t else if t == ['_'] then some 0 else none

/-- A phase written as two binary digits, most significant first (R6, R80). -/
def phaseField : List Char → Option Phase
  | [a, b] => (digitsValue 2 0 [a, b]).map (BitVec.ofNat 2)
  | _ => none

/-- A sample: a number 0 to 15, or two phases `p1:p0` meaning `(p1 << 2) | p0` (R80). -/
def sampleField : List Char → Option Sample
  | [a, b, ':', c, d] =>
    match phaseField [a, b], phaseField [c, d] with
    | some p1, some p0 => some (p1 ++ p0)
    | _, _ => none
  | t => bitsField 4 t

/-- SEEK's fields (R80). -/
def seekLine (sel v0 v1 : List Char) : Option Command :=
  match bitsField 2 sel with
  | some b =>
    match seekField Config.accWidth (b.getLsbD 0) v0, seekField Config.accWidth (b.getLsbD 1) v1 with
    | some w0, some w1 => some (encode (.seek b w0 w1))
    | _, _ => none
  | none => none

/-- CONFIGURE's fields (R80). -/
def configureLine (l0 l1 l2 l3 : List Char) : Option Command :=
  match bitsField Config.lineIdWidth l0, bitsField Config.lineIdWidth l1,
      bitsField Config.lineIdWidth l2, bitsField Config.lineIdWidth l3 with
  | some a, some b, some c, some d => some (encode (.configure a b c d))
  | _, _, _, _ => none

/-- The command of a line's fields: R80's table, then the pseudo-instructions of R81, each expanding to one command. -/
def assembleFields : List (List Char) → Option Command
  | [op] =>
    if op = "NOP".toList then some (encode .nop)
    else if op = "READ".toList then some (encode .read)
    else if op = "RELEASE".toList then some (encode .release)
    else if op = "ZERO".toList then seekLine ['3'] ['0'] ['0']
    else if op = "SEEKNONE".toList then seekLine ['0'] ['_'] ['_']
    else none
  | [op, a] =>
    if op = "CONSUME".toList then (sampleField a).map fun s => encode (.consume s)
    else if op = ".word".toList then (bitsField 16 a).map Command.ofHeader
    else if op = "SEEK0".toList then seekLine ['1'] a ['_']
    else if op = "SEEK1".toList then seekLine ['2'] ['_'] a
    else none
  | [op, a, b] =>
    if op = "SEEKBOTH".toList then seekLine ['3'] a b else none
  | [op, a, b, c] =>
    if op = "SEEK".toList then seekLine a b c else none
  | [op, a, b, c, d] =>
    if op = "CONFIGURE".toList then configureLine a b c d else none
  | _ => none

/-- One assembler line (R80). -/
def assembleLine (line : List Char) : Option Command := assembleFields (fieldsFrom [] (stripComment line))

end Sys2Proof.Machine
end

