-- ==== Sys2Proof/Safety.lean ====
section
/-! DEFINITION. What counts as a sound state and a safe run, in the terms the statements use, and the spec's second
descriptions of things the machine computes (the closed form of R103). -/

namespace Sys2Proof.Machine

/-- The fault record names a command that can raise that cause (R181, R184): 1 an illegal opcode, 2 a reserved bit of a
legal opcode, 3 CONSUME, READ, SEEK or RELEASE, 4 CONSUME, READ or SEEK, 5 CONFIGURE, 6 RELEASE. -/
def recordMatches (cause : BitVec 3) (h : Header) : Bool :=
  match decode (.ofHeader h) with
  | .illegalOpcode => cause == 1#3
  | .reservedNonzero => cause == 2#3
  | .instr .nop => false
  | .instr (.consume _) => cause == 3#3 || cause == 4#3
  | .instr .read => cause == 3#3 || cause == 4#3
  | .instr (.seek _ _ _) => cause == 3#3 || cause == 4#3
  | .instr (.configure _ _ _ _) => cause == 5#3
  | .instr .release => cause == 3#3 || cause == 6#3

/-- The fault registers hold a true record in FAULTED, and zero otherwise (R29, R30). -/
def FaultRecord (s : State) : Prop :=
  if s.life = .faulted then recordMatches s.faultCause s.faultCmd = true
  else s.faultCause = 0 ∧ s.faultCmd = 0

/-- The response driven by the last step fits the state it left (R76, R182, R183): positions only with OK, CONFIG_ERROR
only where a construction may be retried, FAULT exactly in FAULTED. -/
def ResponseFits (s : State) : Prop :=
  match s.rsp with
  | none => True
  | some r =>
    (r.status ≠ .ok → r.pos0 = 0 ∧ r.pos1 = 0) ∧
    (r.status = .configError → s.life = .unconfigured ∨ s.life = .released) ∧
    (r.status = .fault ↔ s.life = .faulted)

/-- The invariant of the machine. -/
structure Inv (s : State) : Prop where
  /-- A READ is in progress only on a live decoder: no fault ends it, and no command runs during it (R31, R180). -/
  busyActive : s.drainBusy = true → s.life = .active
  faultRecord : FaultRecord s
  responseFits : ResponseFits s
  /-- A READ in progress has not responded (R76, R143). -/
  busySilent : s.drainBusy = true → s.rsp = none
  /-- The FIFO never holds more than its depth (R34, R190). -/
  fifoBounded : s.chan.fifo.length ≤ s.chan.depth

/-- n steps; `none` when one of them stops. -/
def run : Nat → State → Option State
  | 0, s => some s
  | n + 1, s =>
    match step s with
    | .next t => run n t
    | .fault _ => none
    | .refused _ => none

/-- The host's move that presents an instruction in its assembler form (R80). -/
def hostMove (i : Instr) : Event := .command (encode i)

/-- The next move of the world, if any, is a host command: until it is taken, only the block moves. -/
def HostOnly (script cycle : List Event) : Prop :=
  match script, cycle with
  | .command _ :: _, _ => True
  | [], .command _ :: _ => True
  | [], [] => True
  | _, _ => False

/-- Samples applied one after another, in the order given (R58). -/
def applySamples (ws : List Sample) (s : State) : State := ws.foldl (fun s w => applySample w s) s

/-- One encoder fed a sequence of phases (R121 to R124). -/
def feed {W : Nat} (ps : List Phase) (e : Encoder W) : Encoder W := ps.foldl (fun e p => (decodeEncoder e p).1) e

/-- `r(phase)`, the place of a phase in the Gray cycle 00, 01, 11, 10 the source calls clockwise (R103). -/
def grayRank (p : Phase) : Nat :=
  if p = 0b00 then 0 else if p = 0b01 then 1 else if p = 0b11 then 2 else 3

/-- The closed form of R103. -/
def closedForm (h : Bool) (prev curr : Phase) : Int :=
  let k := (grayRank curr + 4 - grayRank prev) % 4
  if k = 0 then 0 else if k = 1 then 1 else if k = 3 then -1 else if h then 2 else -2

/-- Both phase bits change: the double transitions (R9, R102). -/
def doubleTransition (prev curr : Phase) : Bool := prev ^^^ curr == 0b11#2

/-- Two machines that agree in everything encoder 0 can depend on while samples are applied (R27, R127): its registers,
the control state, and the encoder 0 bits of the buffered samples. -/
structure AgreeOnEncoder0 (s t : State) : Prop where
  enc0 : s.enc0 = t.enc0
  life : s.life = t.life
  drainBusy : s.drainBusy = t.drainBusy
  fifo : s.chan.fifo.map phase0 = t.chan.fifo.map phase0

/-- As `AgreeOnEncoder0`, for encoder 1 and the encoder 1 bits. -/
structure AgreeOnEncoder1 (s t : State) : Prop where
  enc1 : s.enc1 = t.enc1
  life : s.life = t.life
  drainBusy : s.drainBusy = t.drainBusy
  fifo : s.chan.fifo.map phase1 = t.chan.fifo.map phase1

end Sys2Proof.Machine
end

