-- ==== Sys2Proof/Certificates/Slice0/Obligations.lean ====
section
/-! DEFINITION. The statements about the machine, from the numbered rules of spec/. Each says what it formalises; a
statement about a width is for every accumulator width W with W >= 4 (R5), one about `exec` or `step` for every state, at
the uninterpreted widths of Config, so at every width R5 allows. -/

open Sys2Proof Sys2Proof.Machine

/-- Encoding then decoding gives the instruction back, for every well-formed instruction (R73, R75, R76, R80). -/
def Obligations.EncodedInstructionDecodesBack : Prop :=
  ∀ i : Instr, i.wellFormed = true → decode (encode i) = .instr i

/-- A decoded instruction has the command's own header and holds exactly the header field and the ports its row owns
(R70, R73, R76). R70 says only that an unselected seek port is ignored: that a decoded SEEK holds 0 for it whatever
the port carries, the value R80 has such a port drive, and so is in assembler form, is the model's choice, log
entry 15. -/
def Obligations.DecodedInstructionHoldsTheCommand : Prop :=
  ∀ (c : Command) (i : Instr), decode c = .instr i →
    i.wellFormed = true ∧ encodeHeader i = c.header ∧
    match i with
    | .nop => True
    | .consume smp => smp = c.header.extractLsb' 4 4
    | .read => True
    | .seek sel v0 v1 =>
      sel = c.header.extractLsb' 8 2 ∧
      v0 = (if c.header.getLsbD 8 then c.v0 else 0) ∧ v1 = (if c.header.getLsbD 9 then c.v1 else 0)
    | .configure l0 l1 l2 l3 => l0 = c.l0 ∧ l1 = c.l1 ∧ l2 = c.l2 ∧ l3 = c.l3
    | .release => True

/-- Every command is exactly one of three things, told apart by the header alone: an illegal opcode, the instruction
whose row its header meets under mask and match, or a non-zero reserved bit (R72 to R75). -/
def Obligations.EveryHeaderIsOneOfThree : Prop :=
  ∀ c : Command,
    (decode c = .illegalOpcode ↔ c.header.extractLsb' 0 3 = 0b110#3 ∨ c.header.extractLsb' 0 3 = 0b111#3) ∧
    (decode c = .instr .nop ↔ c.header &&& 0xFFFF#16 = 0x0000#16) ∧
    ((∃ smp, decode c = .instr (.consume smp)) ↔ c.header &&& 0xFF0F#16 = 0x0001#16) ∧
    (decode c = .instr .read ↔ c.header &&& 0xFFFF#16 = 0x0002#16) ∧
    ((∃ sel v0 v1, decode c = .instr (.seek sel v0 v1)) ↔ c.header &&& 0xFCFF#16 = 0x0003#16) ∧
    ((∃ l0 l1 l2 l3, decode c = .instr (.configure l0 l1 l2 l3)) ↔ c.header &&& 0xFFFF#16 = 0x0004#16) ∧
    (decode c = .instr .release ↔ c.header &&& 0xFFFF#16 = 0x0005#16) ∧
    (decode c = .reservedNonzero ↔
      ¬(c.header.extractLsb' 0 3 = 0b110#3 ∨ c.header.extractLsb' 0 3 = 0b111#3) ∧
      c.header &&& 0xFFFF#16 ≠ 0x0000#16 ∧ c.header &&& 0xFF0F#16 ≠ 0x0001#16 ∧
      c.header &&& 0xFFFF#16 ≠ 0x0002#16 ∧ c.header &&& 0xFCFF#16 ≠ 0x0003#16 ∧
      c.header &&& 0xFFFF#16 ≠ 0x0004#16 ∧ c.header &&& 0xFFFF#16 ≠ 0x0005#16)

/-- Words written out from the encodings decode to the instructions they stand for, one for each row (R73, and the
decoding list of spec/95_test_vectors.md). -/
def Obligations.WrittenWordsDecode : Prop :=
  decodeTableWord 16 0b0000000000000000 = some .nop ∧
  decodeTableWord 16 0b0000000011110001 = some (.consume 15) ∧
  decodeTableWord 16 0b0000000000000010 = some .read ∧
  decodeTableWord 16 0b0000001000000011 = some (.seek 2 0 0) ∧
  decodeTableWord 16 0b0000000000000100 = some (.configure 0 0 0 0) ∧
  decodeTableWord 16 0b0000000000000101 = some .release ∧
  decodeTableWord 16 0b0000000000000110 = none ∧
  decodeTableWord 16 0b0000000000001000 = none

/-- A step with a host command next and the port free runs the decoded instruction on the state with that command taken,
wherever the command comes from: the script, the repeated moves, or a table word placed by `withFetchWord`. -/
def Obligations.StepRunsTheDecodedInstruction : Prop :=
  (∀ (s : State) (c : Command) (rest : List Event) (i : Instr),
    s.script = .command c :: rest → s.drainBusy = false → decode c = .instr i →
    step s = exec i { s with script := rest }) ∧
  (∀ (s : State) (c : Command) (rest : List Event) (i : Instr),
    s.script = [] → s.cycle = .command c :: rest → s.drainBusy = false → decode c = .instr i →
    step s = exec i { s with script := rest }) ∧
  (∀ (s : State) (w : Nat) (i : Instr), decodeTableWord 16 w = some i →
    step (s.withFetchWord 16 w) = exec i { s with drainBusy := false })

/-- While a READ drains, the block takes no command: the step is a drain step and the command stays where it is
(R31, R57). -/
def Obligations.CommandWaitsWhileReadDrains : Prop :=
  ∀ (s : State) (c : Command) (rest : List Event),
    s.script = .command c :: rest → s.drainBusy = true →
    ∃ t, step s = .next t ∧ t = drainStep s ∧ t.script = s.script ∧ t.cycle = s.cycle ∧
      t.life = s.life ∧ t.faultCause = s.faultCause ∧ t.faultCmd = s.faultCmd

/-- A header whose `op` is 0b110 or 0b111 faults with ILLEGAL_OPCODE, whatever its other bits hold (R74, R180, R184). -/
def Obligations.IllegalOpcodeFaults : Prop :=
  ∀ (s : State) (c : Command) (rest : List Event),
    s.script = .command c :: rest → s.drainBusy = false → s.life ≠ .faulted →
    (c.header.extractLsb' 0 3 = 0b110#3 ∨ c.header.extractLsb' 0 3 = 0b111#3) →
    step s = .next { s with
      script := rest, life := .faulted, faultCause := 1#3, faultCmd := c.header, rsp := some ⟨.fault, 0, 0⟩ }

/-- A legal opcode with a non-zero reserved or unused bit faults with RESERVED_NONZERO, before any lifecycle check
(R73, R180, R184). -/
def Obligations.ReservedBitFaults : Prop :=
  ∀ (s : State) (c : Command) (rest : List Event),
    s.script = .command c :: rest → s.drainBusy = false → s.life ≠ .faulted →
    ¬(c.header.extractLsb' 0 3 = 0b110#3 ∨ c.header.extractLsb' 0 3 = 0b111#3) →
    (c.header &&& 0xFFFF#16 ≠ 0x0000#16 ∧ c.header &&& 0xFF0F#16 ≠ 0x0001#16 ∧
      c.header &&& 0xFFFF#16 ≠ 0x0002#16 ∧ c.header &&& 0xFCFF#16 ≠ 0x0003#16 ∧
      c.header &&& 0xFFFF#16 ≠ 0x0004#16 ∧ c.header &&& 0xFFFF#16 ≠ 0x0005#16) →
    step s = .next { s with
      script := rest, life := .faulted, faultCause := 2#3, faultCmd := c.header, rsp := some ⟨.fault, 0, 0⟩ }

/-- In FAULTED every instruction, and every command whatever its header, responds (FAULT, 0, 0) and changes nothing: no
register, no channel request, no new cause or header (R185). -/
def Obligations.FaultedBlockOnlyAnswersFault : Prop :=
  (∀ (i : Instr) (s : State), s.life = .faulted → exec i s = .next { s with rsp := some ⟨.fault, 0, 0⟩ }) ∧
  (∀ (s : State) (c : Command) (rest : List Event),
    s.script = .command c :: rest → s.drainBusy = false → s.life = .faulted →
    step s = .next { s with script := rest, rsp := some ⟨.fault, 0, 0⟩ })

/-- Table 40-1 equals the closed form of R103, which counts clockwise quarter-steps along the Gray cycle. -/
def Obligations.LookupTableIsTheClosedForm : Prop :=
  ∀ (h : Bool) (prev curr : Phase), lut h (transitionIndex prev curr) = closedForm h prev curr

/-- The five properties of R104: which entries depend on the hint, reversal, the diagonal, the bound (and that a double
transition keeps the hint that selected it), and the sums over a full cycle. -/
def Obligations.LookupTableProperties : Prop :=
  (∀ i : TransitionIndex, lut false i ≠ lut true i ↔ i = 3 ∨ i = 6 ∨ i = 9 ∨ i = 12) ∧
  (∀ (h : Bool) (a b : Phase), lut h (transitionIndex a b) =
    if doubleTransition a b then lut h (transitionIndex b a) else -lut h (transitionIndex b a)) ∧
  (∀ (h : Bool) (p : Phase), lut h (transitionIndex p p) = 0) ∧
  (∀ (h : Bool) (i : TransitionIndex), -2 ≤ lut h i ∧ lut h i ≤ 2) ∧
  (∀ (h : Bool) (a b : Phase), doubleTransition a b = true → nextHint h (lut h (transitionIndex a b)) = h) ∧
  (∀ h : Bool, lut h 1 + lut h 7 + lut h 14 + lut h 8 = 4 ∧ lut h 2 + lut h 11 + lut h 13 + lut h 4 = -4)

/-- The ROM address `{hint, prev, curr}` is the packed view with the phase in its low bits, and the ROM there holds the
table's entry (R26, R51, R105). -/
def Obligations.RomHoldsTheTable : Prop :=
  ∀ (W : Nat) (e : Encoder W) (curr : Phase),
    e.romAddress curr = BitVec.ofBool e.hint ++ e.prev ++ curr ∧
    romEntry (e.romAddress curr) = lut e.hint (transitionIndex e.prev curr)

/-- One sample on one encoder, at any width: the delta is the closed form's under the old hint, the accumulator adds it
modulo 2^W, the hint takes its sign or is held, and the phase is stored (R121 to R124). -/
def Obligations.OneSampleUpdatesOneEncoder : Prop :=
  ∀ (W : Nat), 4 ≤ W → ∀ (e : Encoder W) (curr : Phase),
    (decodeEncoder e curr).2 = closedForm e.hint e.prev curr ∧
    (decodeEncoder e curr).1.acc.toInt =
      (e.acc.toInt + closedForm e.hint e.prev curr).bmod (2 ^ W) ∧
    (decodeEncoder e curr).1.hint =
      (if 0 < closedForm e.hint e.prev curr then true
        else if closedForm e.hint e.prev curr < 0 then false else e.hint) ∧
    (decodeEncoder e curr).1.prev = curr

/-- The step bound of R129, at any width: the delta is at most 2, ±2 exactly on a double transition; away from the wrap
the position moves by at most 1, and at the wrap it jumps between the ends of its range. -/
def Obligations.SampleStepIsBounded : Prop :=
  ∀ (W : Nat), 4 ≤ W → ∀ (e : Encoder W) (curr : Phase),
    let d := (decodeEncoder e curr).2
    let e' := (decodeEncoder e curr).1
    (-2 ≤ d ∧ d ≤ 2) ∧
    ((d = 2 ∨ d = -2) ↔ doubleTransition e.prev curr = true) ∧
    e'.acc = e.acc + BitVec.ofInt W d ∧
    (-(2 ^ (W - 1) : Int) ≤ e.acc.toInt + d → e.acc.toInt + d < (2 ^ (W - 1) : Int) →
      -1 ≤ (position e'.acc).toInt - (position e.acc).toInt ∧
      (position e'.acc).toInt - (position e.acc).toInt ≤ 1) ∧
    ((2 ^ (W - 1) : Int) ≤ e.acc.toInt + d →
      (position e.acc).toInt = 2 ^ (W - 3) - 1 ∧ (position e'.acc).toInt = -2 ^ (W - 3)) ∧
    (e.acc.toInt + d < -(2 ^ (W - 1) : Int) →
      (position e.acc).toInt = -2 ^ (W - 3) ∧ (position e'.acc).toInt = 2 ^ (W - 3) - 1)

/-- Applying the same sample word a second time changes no register (R128), and so a CONSUME repeated in ACTIVE ends in
the very state the first one gave. -/
def Obligations.RepeatedSampleChangesNothing : Prop :=
  (∀ (w : Sample) (s : State), applySample w (applySample w s) = applySample w s) ∧
  (∀ (w : Sample) (s t : State), s.life = .active →
    exec (.consume w) s = .next t → exec (.consume w) t = .next t)

/-- An accumulator that passes the top of its range wraps to the bottom with its position, and the reverse, at any width
(R122, R222). -/
def Obligations.AccumulatorWraps : Prop :=
  ∀ (W : Nat), 4 ≤ W →
    accumulate (BitVec.intMax W) 1 = BitVec.intMin W ∧
    accumulate (BitVec.intMin W) (-1) = BitVec.intMax W ∧
    (position (BitVec.intMax W)).toInt = 2 ^ (W - 3) - 1 ∧
    (position (BitVec.intMin W)).toInt = -2 ^ (W - 3)

/-- A full clockwise cycle from phase 00 adds 4 and leaves the hint at 1, a full reverse cycle subtracts 4 and leaves it
at 0, whatever the encoder held (R102, R104; S1 and S2 of spec/95_test_vectors.md). -/
def Obligations.FullCycleIsFourQuarterCounts : Prop :=
  ∀ (W : Nat) (e : Encoder W), e.prev = 0b00 →
    feed [0b01, 0b11, 0b10, 0b00] e = { prev := 0b00, hint := true, acc := e.acc + BitVec.ofInt W 4 } ∧
    feed [0b10, 0b11, 0b01, 0b00] e = { prev := 0b00, hint := false, acc := e.acc + BitVec.ofInt W (-4) }

/-- Isolation over any sample sequence: each encoder ends where its own bits alone take it, and zeroing the other
encoder's bits changes nothing for it (R27, R127). -/
def Obligations.LanesAreIsolatedOverStreams : Prop :=
  ∀ (ws : List Sample) (s : State),
    (applySamples ws s).enc0 = feed (ws.map phase0) s.enc0 ∧
    (applySamples ws s).enc1 = feed (ws.map phase1) s.enc1 ∧
    (applySamples (ws.map (· &&& 0b0011#4)) s).enc0 = (applySamples ws s).enc0 ∧
    (applySamples (ws.map (· &&& 0b1100#4)) s).enc1 = (applySamples ws s).enc1

/-- Two machines that differ only in encoder 1's registers and bits stay equal for encoder 0 through a drain step, a
CONSUME, a READ and a SEEK, and answer the same encoder 0 position; and the same with the encoders exchanged (R27). -/
def Obligations.CommandsKeepTheLanesApart : Prop :=
  (∀ s t : State, AgreeOnEncoder0 s t →
    AgreeOnEncoder0 (drainStep s) (drainStep t) ∧
    (drainStep s).rsp.map Response.pos0 = (drainStep t).rsp.map Response.pos0 ∧
    (∀ (a b : Sample) (s' t' : State), phase0 a = phase0 b →
      exec (.consume a) s = .next s' → exec (.consume b) t = .next t' → AgreeOnEncoder0 s' t') ∧
    (∀ s' t' : State, exec .read s = .next s' → exec .read t = .next t' → AgreeOnEncoder0 s' t') ∧
    (∀ (sa sb : BitVec 2) (v a b : Acc) (s' t' : State), sa.getLsbD 0 = sb.getLsbD 0 →
      exec (.seek sa v a) s = .next s' → exec (.seek sb v b) t = .next t' → AgreeOnEncoder0 s' t')) ∧
  (∀ s t : State, AgreeOnEncoder1 s t →
    AgreeOnEncoder1 (drainStep s) (drainStep t) ∧
    (drainStep s).rsp.map Response.pos1 = (drainStep t).rsp.map Response.pos1 ∧
    (∀ (a b : Sample) (s' t' : State), phase1 a = phase1 b →
      exec (.consume a) s = .next s' → exec (.consume b) t = .next t' → AgreeOnEncoder1 s' t') ∧
    (∀ s' t' : State, exec .read s = .next s' → exec .read t = .next t' → AgreeOnEncoder1 s' t') ∧
    (∀ (sa sb : BitVec 2) (v a b : Acc) (s' t' : State), sa.getLsbD 1 = sb.getLsbD 1 →
      exec (.seek sa a v) s = .next s' → exec (.seek sb b v) t = .next t' → AgreeOnEncoder1 s' t'))

/-- CONSUME completes in ACTIVE on every sample: both encoders take their own two bits, nothing else of the block or of
the channel changes, and the response is (OK, 0, 0) (R120 to R126, R59). -/
def Obligations.ConsumeUpdatesBothEncoders : Prop :=
  ∀ (smp : Sample) (s : State), s.life = .active →
    let c0 : Phase := smp.extractLsb' 0 2
    let c1 : Phase := smp.extractLsb' 2 2
    let d0 := lut s.enc0.hint (s.enc0.prev ++ c0)
    let d1 := lut s.enc1.hint (s.enc1.prev ++ c1)
    exec (.consume smp) s = .next { s with
      enc0 :=
        { prev := c0
          hint := if d0 > 0 then true else if d0 < 0 then false else s.enc0.hint
          acc := s.enc0.acc + BitVec.ofInt Config.accWidth d0 }
      enc1 :=
        { prev := c1
          hint := if d1 > 0 then true else if d1 < 0 then false else s.enc1.hint
          acc := s.enc1.acc + BitVec.ofInt Config.accWidth d1 }
      rsp := some ⟨.ok, 0, 0⟩ }

/-- The fault cells of R167: which command in which lifecycle state raises which cause, with the whole fault entry of R180
and nothing else changed. -/
def Obligations.LifecycleFaultsAreTaken : Prop :=
  ∀ s : State,
    let faults (cause : BitVec 3) (i : Instr) : Prop :=
      exec i s = .next { s with
        life := .faulted, faultCause := cause, faultCmd := encodeHeader i, rsp := some ⟨.fault, 0, 0⟩ }
    (s.life = .unconfigured →
      (∀ smp, faults 3 (.consume smp)) ∧ faults 3 .read ∧ (∀ sel v0 v1, faults 3 (.seek sel v0 v1)) ∧
      faults 3 .release) ∧
    (s.life = .released →
      (∀ smp, faults 4 (.consume smp)) ∧ faults 4 .read ∧ (∀ sel v0 v1, faults 4 (.seek sel v0 v1))) ∧
    (s.life = .active → ∀ l0 l1 l2 l3, faults 5 (.configure l0 l1 l2 l3))

/-- READ's accepting step in ACTIVE makes the command port busy, responds nothing yet and changes nothing else (R141). -/
def Obligations.ReadMakesThePortBusy : Prop :=
  ∀ s : State, s.life = .active → exec .read s = .next { s with drainBusy := true, rsp := none }

/-- A drain step pops the oldest sample and applies it to both encoders; on an empty FIFO it frees the port and responds
both positions from that one state (R142, R143, R190). It happens with no move of the world left, with a command
waiting, and on the block's own turn. -/
def Obligations.DrainStepAppliesTheOldestSample : Prop :=
  (∀ (s : State) (w : Sample) (q : List Sample), s.drainBusy = true → HostOnly s.script s.cycle →
    s.chan.fifo = w :: q →
    step s = .next { s with
      enc0 := (decodeEncoder s.enc0 (w.extractLsb' 0 2)).1
      enc1 := (decodeEncoder s.enc1 (w.extractLsb' 2 2)).1
      chan := { s.chan with fifo := q }
      rsp := none }) ∧
  (∀ s : State, s.drainBusy = true → HostOnly s.script s.cycle → s.chan.fifo = [] →
    step s = .next { s with
      drainBusy := false
      rsp := some ⟨.ok, s.enc0.acc.sshiftRight 2, s.enc1.acc.sshiftRight 2⟩ }) ∧
  (∀ (s : State) (rest : List Event), s.drainBusy = true → s.script = .turn :: rest →
    step s = .next (drainStep { s with script := rest }))

/-- A READ with no sample arriving drains every buffered sample in arrival order and then responds both positions: after
one step for each sample and one more, counted from the drain, or two more, counted from the command (R58, R61,
R142, R143). -/
def Obligations.ReadDrainsEverythingThenAnswers : Prop :=
  (∀ s : State, s.drainBusy = true → HostOnly s.script s.cycle →
    run (s.chan.fifo.length + 1) s = some { s with
      enc0 := feed (s.chan.fifo.map phase0) s.enc0
      enc1 := feed (s.chan.fifo.map phase1) s.enc1
      chan := { s.chan with fifo := [] }
      drainBusy := false
      rsp := some ⟨.ok, position (feed (s.chan.fifo.map phase0) s.enc0).acc,
        position (feed (s.chan.fifo.map phase1) s.enc1).acc⟩ }) ∧
  (∀ (s : State) (rest : List Event), s.life = .active → s.drainBusy = false →
    s.script = hostMove .read :: rest → HostOnly rest s.cycle →
    run (s.chan.fifo.length + 2) s = some { s with
      enc0 := feed (s.chan.fifo.map phase0) s.enc0
      enc1 := feed (s.chan.fifo.map phase1) s.enc1
      chan := { s.chan with fifo := [] }
      drainBusy := false
      script := rest
      rsp := some ⟨.ok, position (feed (s.chan.fifo.map phase0) s.enc0).acc,
        position (feed (s.chan.fifo.map phase1) s.enc1).acc⟩ })

/-- Along any infinite run in which the channel is never found empty on a move of the block's own (each `ChanAvail()` answers
true) and reset is never asserted, a READ in progress never completes; and the machine keeps such a run: a producer
that appends one sample before every turn of the block holds the READ for ever, with no cut at the FIFO depth (R144).
That a machine repeats the moves of its `cycle` for ever is the model's choice, log entry 5. -/
def Obligations.ReadNeverCompletesWhileSamplesKeepComing : Prop :=
  (∀ σ : Nat → State, (σ 0).drainBusy = true → (∀ n, step (σ n) = .next (σ (n + 1))) →
    (∀ n, (∀ w s', nextMove (σ n) ≠ some (.sample w, s')) → (∀ ch s', nextMove (σ n) ≠ some (.platform ch, s')) →
      chanAvail (σ n).chan = true) →
    (∀ n s', nextMove (σ n) ≠ some (.reset, s')) →
    ∀ n, (σ n).drainBusy = true ∧ (σ (n + 1)).rsp = none) ∧
  (∀ (s : State) (w : Sample), s.drainBusy = true → s.script = [] → s.cycle = [.sample w, .turn] →
    s.chan.fifo.length < s.chan.depth →
    ∀ n, ∃ t, run (n + 1) s = some t ∧ t.drainBusy = true ∧ t.rsp = none)

/-- Two READs with no sample arriving between them respond the same positions, and the second changes no encoder
register (R56). -/
def Obligations.TwoReadsInARowAgree : Prop :=
  ∀ s : State, s.life = .active → s.drainBusy = false → s.cycle = [] →
    s.script = [hostMove .read, hostMove .read] →
    ∃ t u, run (s.chan.fifo.length + 2) s = some t ∧ run (s.chan.fifo.length + 4) s = some u ∧
      t.rsp.isSome = true ∧ u.rsp = t.rsp ∧ u.enc0 = t.enc0 ∧ u.enc1 = t.enc1

/-- The reported position is the accumulator divided by 4 rounded down, stays in its range, and takes each value on
exactly four accumulator values, at any width (R7, R140). -/
def Obligations.PositionIsTheFloorOfAQuarter : Prop :=
  ∀ (W : Nat), 4 ≤ W → ∀ acc : BitVec W,
    (position acc).toInt = Int.fdiv acc.toInt 4 ∧
    (-(2 ^ (W - 3) : Int) ≤ (position acc).toInt ∧ (position acc).toInt ≤ 2 ^ (W - 3) - 1) ∧
    (∀ p : Int, (position acc).toInt = p ↔ 4 * p ≤ acc.toInt ∧ acc.toInt ≤ 4 * p + 3)

/-- SEEK completes in ACTIVE on every operand: each selected accumulator is the value shifted left by 2, an unselected one
and every phase and hint are unchanged, and the response is (OK, 0, 0) (R145, R146). -/
def Obligations.SeekOverwritesTheSelectedAccumulators : Prop :=
  ∀ (sel : BitVec 2) (v0 v1 : Acc) (s : State), s.life = .active →
    exec (.seek sel v0 v1) s = .next { s with
      enc0 := { s.enc0 with acc := if sel.getLsbD 0 then v0 <<< 2 else s.enc0.acc }
      enc1 := { s.enc1 with acc := if sel.getLsbD 1 then v1 <<< 2 else s.enc1.acc }
      rsp := some ⟨.ok, 0, 0⟩ }

/-- The seek round trip: in range a value comes back, outside it the low W - 2 bits come back sign-extended; on the
machine, a SEEK of either encoder followed by a READ that drains nothing responds so, the other position unchanged
(R147). -/
def Obligations.SeekThenReadRoundTrip : Prop :=
  (∀ (W : Nat), 4 ≤ W → ∀ v : BitVec W,
    position (seekValue v) = (v.setWidth (W - 2)).signExtend W ∧
    (-(2 ^ (W - 3) : Int) ≤ v.toInt → v.toInt ≤ 2 ^ (W - 3) - 1 → position (seekValue v) = v)) ∧
  (∀ (s : State) (v : Acc), s.life = .active → s.drainBusy = false → s.chan.fifo = [] → s.cycle = [] →
    (s.script = [hostMove (.seek 1 v 0), hostMove .read] →
      ∃ t, run 3 s = some t ∧
        t.rsp = some ⟨.ok, (v.setWidth (Config.accWidth - 2)).signExtend Config.accWidth, position s.enc1.acc⟩) ∧
    (s.script = [hostMove (.seek 2 0 v), hostMove .read] →
      ∃ t, run 3 s = some t ∧
        t.rsp = some ⟨.ok, position s.enc0.acc, (v.setWidth (Config.accWidth - 2)).signExtend Config.accWidth⟩))

/-- SEEK leaves phase history and hints alone: the next sample takes the same phases, hints and deltas as if the SEEK had
not happened (R146, R214). -/
def Obligations.SeekKeepsPhaseAndHint : Prop :=
  ∀ (sel : BitVec 2) (v0 v1 : Acc) (w : Sample) (s t u v : State), s.life = .active →
    exec (.seek sel v0 v1) s = .next t → exec (.consume w) t = .next u → exec (.consume w) s = .next v →
    (t.enc0.prev = s.enc0.prev ∧ t.enc0.hint = s.enc0.hint ∧ t.enc1.prev = s.enc1.prev ∧ t.enc1.hint = s.enc1.hint) ∧
    (u.enc0.prev = v.enc0.prev ∧ u.enc0.hint = v.enc0.hint ∧ u.enc1.prev = v.enc1.prev ∧ u.enc1.hint = v.enc1.hint) ∧
    u.enc0.acc - t.enc0.acc = v.enc0.acc - s.enc0.acc ∧ u.enc1.acc - t.enc1.acc = v.enc1.acc - s.enc1.acc

/-- Samples buffered before a SEEK are applied after it, at the next READ, on top of the new value (R145, R215). -/
def Obligations.SeekDoesNotDrainTheChannel : Prop :=
  ∀ (s : State) (v0 v1 : Acc), s.life = .active → s.drainBusy = false → s.cycle = [] →
    s.script = [hostMove (.seek 3 v0 v1), hostMove .read] →
    ∃ t, run (s.chan.fifo.length + 3) s = some t ∧
      t.rsp = some ⟨.ok,
        position (feed (s.chan.fifo.map phase0) { s.enc0 with acc := v0 <<< 2 }).acc,
        position (feed (s.chan.fifo.map phase1) { s.enc1 with acc := v1 <<< 2 }).acc⟩

/-- A CONSUME issued while samples wait in the channel is applied before them, and the FIFO is neither read nor flushed by
it (R59, R126, R216). -/
def Obligations.HostSampleGoesAheadOfBufferedOnes : Prop :=
  ∀ (s : State) (w : Sample), s.life = .active → s.drainBusy = false → s.cycle = [] →
    s.script = [hostMove (.consume w), hostMove .read] →
    (∃ u, run 1 s = some u ∧ u.chan = s.chan) ∧
    ∃ t, run (s.chan.fifo.length + 3) s = some t ∧
      t.enc0 = feed ((w :: s.chan.fifo).map phase0) s.enc0 ∧
      t.enc1 = feed ((w :: s.chan.fifo).map phase1) s.enc1

/-- NOP completes outside FAULTED, responds (OK, 0, 0) and changes nothing (R160). -/
def Obligations.NopOnlyResponds : Prop :=
  ∀ s : State, s.life ≠ .faulted → exec .nop s = .next { s with rsp := some ⟨.ok, 0, 0⟩ }

/-- CONFIGURE on lines the channel accepts constructs a fresh decoder, from UNCONFIGURED or RELEASED: every encoder
register zero, `life` ACTIVE, the channel bound to the lines, the fault record and the port as they were (R161, R163,
R190). That the FIFO stays as it was is the model's choice, log entry 12: R190 and N13 leave it open. -/
def Obligations.ConfigureConstructsADecoder : Prop :=
  ∀ (l0 l1 l2 l3 : LineId) (s : State), s.life = .unconfigured ∨ s.life = .released →
    validateAnswer s.chan ⟨l0, l1, l2, l3⟩ = true →
    ∃ ch, exec (.configure l0 l1 l2 l3) s = .next { s with
        enc0 := { prev := 0b00, hint := false, acc := 0 }
        enc1 := { prev := 0b00, hint := false, acc := 0 }
        life := .active
        chan := ch
        rsp := some ⟨.ok, 0, 0⟩ } ∧
      ch.bound = some ⟨l0, l1, l2, l3⟩ ∧ ch.fifo = s.chan.fifo ∧ ch.depth = s.chan.depth

/-- CONFIGURE on lines the channel reports non-sequential responds CONFIG_ERROR and changes no register; nothing is bound
(R161, R162, R183). That the FIFO stays as it was is the model's choice, log entry 12. -/
def Obligations.RejectedConfigureChangesNoRegister : Prop :=
  ∀ (l0 l1 l2 l3 : LineId) (s : State), s.life = .unconfigured ∨ s.life = .released →
    validateAnswer s.chan ⟨l0, l1, l2, l3⟩ = false →
    ∃ ch, exec (.configure l0 l1 l2 l3) s = .next { s with chan := ch, rsp := some ⟨.configError, 0, 0⟩ } ∧
      ch.bound = s.chan.bound ∧ ch.fifo = s.chan.fifo ∧ ch.depth = s.chan.depth

/-- The reference channel accepts exactly four consecutive lines, as unsigned numbers; so lines whose third and fourth are
not adjacent are rejected (R191). -/
def Obligations.ReferenceChannelWantsConsecutiveLines : Prop :=
  ∀ (ch : Channel) (l : Lines), ch.validate = .reference →
    (validateAnswer ch l = true ↔
      l.l1.toNat = l.l0.toNat + 1 ∧ l.l2.toNat = l.l0.toNat + 2 ∧ l.l3.toNat = l.l0.toNat + 3) ∧
    (l.l3.toNat ≠ l.l2.toNat + 1 → validateAnswer ch l = false)

/-- RELEASE of a decoder whose channel releases sets `life` to RELEASED and keeps every other register; the channel ends
unbound and its samples are lost with it (R164, R190). That the model empties the FIFO is log entry 11. -/
def Obligations.ReleaseTearsTheDecoderDown : Prop :=
  ∀ s : State, s.life = .active → releaseAnswer s.chan = true →
    ∃ ch, exec .release s = .next { s with life := .released, chan := ch, rsp := some ⟨.ok, 0, 0⟩ } ∧
      ch.bound = none ∧ ch.fifo = []

/-- A second RELEASE does nothing, responds OK and does not ask the channel again (R165). -/
def Obligations.RepeatedReleaseDoesNothing : Prop :=
  ∀ s : State, s.life = .released → exec .release s = .next { s with rsp := some ⟨.ok, 0, 0⟩ }

/-- A channel that fails to release makes RELEASE fault with TEARDOWN_FAILURE: the fault entry of R180, no encoder
register touched, the channel left in any state that fits its depth (R166, R180, U5). -/
def Obligations.FailedReleaseFaults : Prop :=
  ∀ s : State, s.life = .active → releaseAnswer s.chan = false →
    ∃ ch, exec .release s = .next { s with
        life := .faulted, faultCause := 6#3, faultCmd := 0x0005#16, chan := ch, rsp := some ⟨.fault, 0, 0⟩ } ∧
      ch.depth = s.chan.depth ∧ ch.fifo.length ≤ ch.depth

/-- A fault is precise: an instruction that takes the block into FAULTED writes only `life`, the cause and its own header,
responds (FAULT, 0, 0), and but for a failed teardown makes no channel request (R35, R180). -/
def Obligations.FaultIsPrecise : Prop :=
  ∀ (i : Instr) (s t : State), s.life ≠ .faulted → exec i s = .next t → t.life = .faulted →
    t = { s with
      life := .faulted, faultCause := t.faultCause, faultCmd := encodeHeader i, chan := t.chan,
      rsp := some ⟨.fault, 0, 0⟩ } ∧
    (t.faultCause = 3 ∨ t.faultCause = 4 ∨ t.faultCause = 5 ∨ t.faultCause = 6) ∧
    (t.faultCause ≠ 6 → t.chan = s.chan)

/-- Only a hardware reset leaves FAULTED, and the first fault stays recorded until then (R29, R185, R186). -/
def Obligations.OnlyResetLeavesFaulted : Prop :=
  ∀ s t : State, s.life = .faulted → step s = .next t → (∀ s', nextMove s ≠ some (.reset, s')) →
    t.life = .faulted ∧ t.faultCause = s.faultCause ∧ t.faultCmd = s.faultCmd

/-- A fault is raised only in a step that accepts a command, never in a drain step or in another agent's step, so no
fault ends a READ in progress; and no such step writes the fault record (R180). -/
def Obligations.FaultsOnlyInAcceptingSteps : Prop :=
  ∀ s t : State, s.life ≠ .faulted → step s = .next t →
    (t.life = .faulted → s.drainBusy = false ∧ ∃ c s', nextMove s = some (.command c, s') ∧ t.faultCmd = c.header) ∧
    (t.life ≠ .faulted → (∀ s', nextMove s ≠ some (.reset, s')) →
      t.faultCause = s.faultCause ∧ t.faultCmd = s.faultCmd)

/-- Hardware reset, from any state: every register of R21 takes its reset value in one step, a READ in progress is
abandoned with no response (R210). R211 says only that reset calls no `ChanRelease()` and clears no FIFO, and P5 leaves
the channel any value: that the reset step leaves the whole channel and the moves still to come as they were is the
model's choice, log entry 13. -/
def Obligations.HardwareResetSetsEveryRegister : Prop :=
  ∀ (s : State) (rest : List Event), s.script = .reset :: rest →
    step s = .next
      { enc0 := { prev := 0b00, hint := false, acc := 0 }
        enc1 := { prev := 0b00, hint := false, acc := 0 }
        life := .unconfigured
        faultCause := 0
        faultCmd := 0x0000
        drainBusy := false
        rsp := none
        chan := s.chan
        script := rest
        cycle := s.cycle }

/-- The state the model starts from holds the reset value of every register (R21, R210). -/
def Obligations.ResetStateHoldsTheResetValues : Prop :=
  State.reset.enc0 = { prev := 0b00, hint := false, acc := 0 } ∧
  State.reset.enc1 = { prev := 0b00, hint := false, acc := 0 } ∧
  State.reset.life = .unconfigured ∧ State.reset.faultCause = 0 ∧ State.reset.faultCmd = 0x0000 ∧
  State.reset.drainBusy = false

/-- The codes on the status port and the response port: `life` as R28 encodes it, never two values alike; the fault
registers as they are; and no status code 3 (R28, R78, R182). -/
def Obligations.PortsCarryTheCodes : Prop :=
  (∀ s : State,
    (s.life = .unconfigured ↔ s.statLife = 0b00#2) ∧ (s.life = .active ↔ s.statLife = 0b01#2) ∧
    (s.life = .released ↔ s.statLife = 0b10#2) ∧ (s.life = .faulted ↔ s.statLife = 0b11#2) ∧
    s.statFaultCause = s.faultCause ∧ s.statFaultCmd = s.faultCmd) ∧
  (∀ (s : State) (r : Response), s.rsp = some r →
    (r.status = .ok ↔ s.rspStatus = some 0#2) ∧ (r.status = .configError ↔ s.rspStatus = some 1#2) ∧
    (r.status = .fault ↔ s.rspStatus = some 2#2) ∧ s.rspStatus ≠ some 3#2)

/-- The invariant holds after reset. -/
def Obligations.ResetMeetsTheInvariant : Prop := Inv State.reset

/-- Every step of every agent keeps the invariant: a READ in progress only on a live decoder and unanswered, a true fault
record in FAULTED and an empty one elsewhere, responses that fit, a FIFO within its depth (R29 to R31, R76, R180,
R181). -/
def Obligations.EveryStepKeepsTheInvariant : Prop := ∀ s t : State, Inv s → step s = .next t → Inv t

/-- The machine never stops: every step from every state gives a next state, and so does every instruction. -/
def Obligations.NoStepEverStops : Prop :=
  (∀ s : State, ∃ t, step s = .next t) ∧ (∀ (i : Instr) (s : State), ∃ t, exec i s = .next t)

/-- The producer and the platform touch no register of the block: their step changes the channel alone. A FIFO with room
takes the sample last; whatever a full FIFO does, it stays within its depth (R20, R58, R189, R190). -/
def Obligations.OtherAgentsTouchOnlyTheChannel : Prop :=
  (∀ (s : State) (w : Sample) (rest : List Event), s.script = .sample w :: rest →
    ∃ ch, step s = .next { s with script := rest, chan := ch, rsp := none } ∧ ch.fifo.length ≤ ch.depth ∧
      ch.depth = s.chan.depth ∧
      (s.chan.fifo.length < s.chan.depth → ch = { s.chan with fifo := s.chan.fifo ++ [w] })) ∧
  (∀ (s : State) (new : Channel) (rest : List Event), s.script = .platform new :: rest →
    ∃ ch, step s = .next { s with script := rest, chan := ch, rsp := none } ∧ ch.fifo.length ≤ ch.depth ∧
      ch.depth = s.chan.depth)

/-- Which steps write which encoder registers: a phase or a hint changes only by reset, a drain step, CONSUME or
CONFIGURE, and an accumulator by these or by SEEK (R22, R35). -/
def Obligations.OnlyTheseStepsWriteEncoderRegisters : Prop :=
  ∀ s t : State, step s = .next t → s.drainBusy = false → (∀ s', nextMove s ≠ some (.reset, s')) →
    ((t.enc0.prev ≠ s.enc0.prev ∨ t.enc0.hint ≠ s.enc0.hint ∨ t.enc1.prev ≠ s.enc1.prev ∨ t.enc1.hint ≠ s.enc1.hint) →
      ∃ c s', nextMove s = some (.command c, s') ∧
        ((∃ w, decode c = .instr (.consume w)) ∨ (∃ l0 l1 l2 l3, decode c = .instr (.configure l0 l1 l2 l3)))) ∧
    ((t.enc0.acc ≠ s.enc0.acc ∨ t.enc1.acc ≠ s.enc1.acc) →
      ∃ c s', nextMove s = some (.command c, s') ∧
        ((∃ w, decode c = .instr (.consume w)) ∨ (∃ l0 l1 l2 l3, decode c = .instr (.configure l0 l1 l2 l3)) ∨
          (∃ sel v0 v1, decode c = .instr (.seek sel v0 v1))))

/-- After RELEASE only NOP, RELEASE and CONFIGURE do not fault (R167, R219). -/
def Obligations.OnlyThreeCommandsRunAfterRelease : Prop :=
  ∀ (i : Instr) (s : State), s.life = .released →
    ∃ t, exec i s = .next t ∧
      (t.life ≠ .faulted ↔ i = .nop ∨ i = .release ∨ ∃ l0 l1 l2 l3, i = .configure l0 l1 l2 l3)

/-- The response carries a position only when a READ completes: any other step that responds drives both to 0 (R76). -/
def Obligations.PositionsOnlyInReadResponses : Prop :=
  ∀ (s t : State) (r : Response), step s = .next t → t.rsp = some r → r.pos0 ≠ 0 ∨ r.pos1 ≠ 0 →
    s.drainBusy = true ∧ chanAvail s.chan = false ∧ t.drainBusy = false ∧
    r = ⟨.ok, position s.enc0.acc, position s.enc1.acc⟩

/-- The startup transition: after a construction an encoder resting at 01, 10 or 11 counts +1, -1 or -2 on its first
sample, and one at 00 counts 0 (R130, R220). -/
def Obligations.StartupTransitionCounts : Prop :=
  ∀ (W : Nat),
    (decodeEncoder (Encoder.zero : Encoder W) 0b00).1.acc = BitVec.ofInt W 0 ∧
    (decodeEncoder (Encoder.zero : Encoder W) 0b01).1.acc = BitVec.ofInt W 1 ∧
    (decodeEncoder (Encoder.zero : Encoder W) 0b10).1.acc = BitVec.ofInt W (-1) ∧
    (decodeEncoder (Encoder.zero : Encoder W) 0b11).1.acc = BitVec.ofInt W (-2)

/-- The boot sequence: reset, CONFIGURE on lines the channel accepts, READ, SEEK 3 to 0 takes any machine, whatever it
held, to an ACTIVE one whose accumulators are 0 and whose phases are those of the last sample the channel held, so the
startup transition is absorbed (R213). That samples buffered before the reset are still there for the READ, through the
reset and the CONFIGURE, is the model's choice, log entries 13 and 12. -/
def Obligations.BootSequenceAbsorbsTheStartup : Prop :=
  ∀ (s : State) (l0 l1 l2 l3 : LineId) (ws : List Sample) (w : Sample),
    validateAnswer s.chan ⟨l0, l1, l2, l3⟩ = true → s.chan.fifo = ws ++ [w] → s.cycle = [] →
    s.script = [.reset, hostMove (.configure l0 l1 l2 l3), hostMove .read, hostMove (.seek 3 0 0)] →
    ∃ t, run (s.chan.fifo.length + 5) s = some t ∧ t.life = .active ∧ t.drainBusy = false ∧
      t.enc0.acc = 0 ∧ t.enc1.acc = 0 ∧ t.enc0.prev = phase0 w ∧ t.enc1.prev = phase1 w ∧ t.chan.fifo = []

/-- Assembler lines give the headers and ports R80 gives them, CONFIGURE its four lines in order whatever numbers its
fields hold, and each pseudo-instruction of R81 is its expansion, whatever its value field holds. The form of the
text is the model's choice, log entry 17. -/
def Obligations.AssemblerLinesGiveTheirCommands : Prop :=
  assembleLine "NOP ; idle".toList = some (.ofHeader 0x0000) ∧
  assembleLine "CONSUME 15".toList = some (.ofHeader 0x00F1) ∧
  assembleLine "CONSUME 01:01".toList = some (.ofHeader 0x0051) ∧
  assembleLine "READ".toList = some (.ofHeader 0x0002) ∧
  assembleLine "SEEK 3, 7, -3".toList =
    some { Command.ofHeader 0x0303 with v0 := BitVec.ofInt _ 7, v1 := BitVec.ofInt _ (-3) } ∧
  assembleLine "SEEK 2, 0, -1".toList = none ∧
  assembleLine "RELEASE".toList = some (.ofHeader 0x0005) ∧
  assembleLine ".word 0x8006".toList = some (.ofHeader 0x8006) ∧
  (∀ (t0 t1 t2 t3 : List Char) (l0 l1 l2 l3 : LineId),
    bitsField Config.lineIdWidth t0 = some l0 → bitsField Config.lineIdWidth t1 = some l1 →
    bitsField Config.lineIdWidth t2 = some l2 → bitsField Config.lineIdWidth t3 = some l3 →
    assembleFields ["CONFIGURE".toList, t0, t1, t2, t3] =
      some { Command.ofHeader 0x0004 with l0 := l0, l1 := l1, l2 := l2, l3 := l3 }) ∧
  (∀ v : List Char, assembleFields ["SEEK0".toList, v] = assembleFields ["SEEK".toList, ['1'], v, ['_']]) ∧
  (∀ v : List Char, assembleFields ["SEEK1".toList, v] = assembleFields ["SEEK".toList, ['2'], ['_'], v]) ∧
  (∀ v0 v1 : List Char,
    assembleFields ["SEEKBOTH".toList, v0, v1] = assembleFields ["SEEK".toList, ['3'], v0, v1]) ∧
  assembleFields ["ZERO".toList] = assembleFields ["SEEK".toList, ['3'], ['0'], ['0']] ∧
  assembleFields ["SEEKNONE".toList] = assembleFields ["SEEK".toList, ['0'], ['_'], ['_']]

/-- The parameters keep the bounds of R5: W is at least 4 and a FIFO is at least 1 deep; and the depth is a parameter, no
step changes it. That it survives a failed release and a change by the platform is the model's choice, log entries
10 and 20. -/
def Obligations.ParametersKeepTheirBounds : Prop :=
  4 ≤ Config.accWidth ∧ (∀ ch : Channel, 1 ≤ ch.depth) ∧
    ∀ s t : State, step s = .next t → t.chan.depth = s.chan.depth
end

