-- ==== Sys2Proof/Laws/Chan.lean ====
section
/-! SUPPORT. What the channel's primitives and the moves on it can do: one lemma each, cited instead of unfolding them. -/

namespace Sys2Proof.Machine

/-- A channel holds at least one sample (R5: `FIFO_DEPTH` >= 1). -/
theorem Channel.one_le_depth (ch : Channel) : 1 ≤ ch.depth := by simp [Channel.depth]

/-! No operation on a channel changes its depth. -/

/-- Whatever else of a channel is replaced, its depth is the one of the channel its parameter comes from. -/
@[simp] theorem Channel.depth_mk (ch : Channel) (q : List Sample) (b : Option Lines) (v : ValidateAnswer) (r : ReleaseAnswer)
    (n : Nat) : (Channel.mk q ch.depthAboveOne b v r n).depth = ch.depth := rfl

@[simp] theorem chanReleased_depth (ch : Channel) : (chanReleased ch).depth = ch.depth := rfl

@[simp] theorem chanReleaseFailed_depth (ch : Channel) : (chanReleaseFailed ch).depth = ch.depth := rfl

@[simp] theorem chanReplaced_depth (new old : Channel) : (chanReplaced new old).depth = old.depth := rfl

/-- `ChanAvail()` is true exactly when there is a sample (R190). -/
@[simp] theorem chanAvail_eq_false (ch : Channel) : chanAvail ch = false ↔ ch.fifo = [] := by
  simp [chanAvail]

/-- `ChanRead()` answers a sample exactly when `ChanAvail()` is true (R190). -/
theorem chanRead_isSome (ch : Channel) : (chanRead ch).isSome = chanAvail ch := by
  cases h : ch.fifo <;> simp [chanRead, chanAvail, h]

/-- A release that succeeds unbinds the channel and loses its samples; one that fails leaves any FIFO that fits the
depth (R164, R166, U5). -/
theorem chanRelease_cases (ch : Channel) :
    (releaseAnswer ch = true ∧ chanRelease ch = (true, chanReleased (drawnRelease ch))) ∨
    (releaseAnswer ch = false ∧ chanRelease ch = (false, chanReleaseFailed (drawnRelease ch))) := by
  cases h : releaseAnswer ch <;> simp [chanRelease, h]

/-- A validation binds the lines when the answer is true and changes nothing but the draw counter when it is false
(R162, R190). -/
theorem chanValidate_cases (ch : Channel) (l : Lines) :
    (validateAnswer ch l = true ∧ chanValidate ch l = (true, { drawnValidate ch with bound := some l })) ∨
    (validateAnswer ch l = false ∧ chanValidate ch l = (false, drawnValidate ch)) := by
  cases h : validateAnswer ch l <;> simp [chanValidate, h]

@[simp] theorem drawnValidate_fifo (ch : Channel) : (drawnValidate ch).fifo = ch.fifo := by
  unfold drawnValidate; split <;> rfl

@[simp] theorem drawnValidate_depth (ch : Channel) : (drawnValidate ch).depth = ch.depth := by
  unfold drawnValidate; split <;> rfl

@[simp] theorem drawnValidate_bound (ch : Channel) : (drawnValidate ch).bound = ch.bound := by
  unfold drawnValidate; split <;> rfl

@[simp] theorem drawnRelease_depth (ch : Channel) : (drawnRelease ch).depth = ch.depth := by
  unfold drawnRelease; split <;> rfl

/-- No validation moves a sample or the depth (R190). -/
theorem chanValidate_fifo (ch : Channel) (l : Lines) :
    (chanValidate ch l).2.fifo = ch.fifo ∧ (chanValidate ch l).2.depth = ch.depth := by
  unfold chanValidate; split <;> simp

/-- A failed release leaves a FIFO that fits the depth (U5, R166). -/
theorem chanReleaseFailed_bounded (ch : Channel) : (chanReleaseFailed ch).fifo.length ≤ ch.depth := by
  simp [chanReleaseFailed, List.length_take]

/-- After a release, failed or not, the FIFO fits the depth, which is unchanged. -/
theorem chanRelease_bounded (ch : Channel) :
    (chanRelease ch).2.fifo.length ≤ ch.depth ∧ (chanRelease ch).2.depth = ch.depth := by
  unfold chanRelease; split <;> simp [chanReleased, chanReleaseFailed, List.length_take]

/-- An append to a FIFO with room puts the sample last and changes nothing else (R58, R189). -/
theorem chanAppend_room (w : Sample) (ch : Channel) (h : ch.fifo.length < ch.depth) :
    chanAppend w ch = { ch with fifo := ch.fifo ++ [w] } := by
  simp [chanAppend, h]

/-- An append leaves a FIFO that fits the depth, which is unchanged (R190, P2). -/
theorem chanAppend_bounded (w : Sample) (ch : Channel) :
    (chanAppend w ch).fifo.length ≤ ch.depth ∧ (chanAppend w ch).depth = ch.depth := by
  unfold chanAppend
  split
  · refine ⟨?_, rfl⟩
    simp only [List.length_append, List.length_cons, List.length_nil]
    omega
  · simp [List.length_take]

/-- The platform's change leaves a FIFO that fits the depth, which is unchanged. -/
theorem chanReplaced_bounded (new old : Channel) :
    (chanReplaced new old).fifo.length ≤ old.depth ∧ (chanReplaced new old).depth = old.depth := by
  simp [chanReplaced, List.length_take]

end Sys2Proof.Machine
end

