-- ==== Sys2Proof/Laws/Config.lean ====
section
/-! SUPPORT. What the model knows of its parameters (R5): the bounds they keep, and that values of four bits fit an accumulator. -/

namespace Sys2Proof

/-- `ACC_WIDTH` is at least 4 (R5). -/
theorem Config.four_le_accWidth : 4 ≤ Config.accWidth := Nat.le_add_left 4 _

/-- A number below 16 is itself at accumulator width. -/
theorem Acc.toNat_ofNat_of_lt {n : Nat} (h : n < 16) : (BitVec.ofNat Config.accWidth n).toNat = n := by
  have hw : 2 ^ 4 ≤ 2 ^ Config.accWidth := Nat.pow_le_pow_right (by decide) Config.four_le_accWidth
  rw [BitVec.toNat_ofNat, Nat.mod_eq_of_lt (by omega)]

/-- Numbers below 16 that differ stay different at accumulator width. -/
theorem Acc.ofNat_ne {n m : Nat} (hn : n < 16) (hm : m < 16) (h : n ≠ m) :
    BitVec.ofNat Config.accWidth n ≠ BitVec.ofNat Config.accWidth m := fun e =>
  h (by rw [← Acc.toNat_ofNat_of_lt hn, e, Acc.toNat_ofNat_of_lt hm])

end Sys2Proof
end

