-- ==== Sys2Proof/Laws/Decode.lean ====
section
/-! SUPPORT. The decoder, case by case: what a decoded instruction says of the header it came from. -/

namespace Sys2Proof

/-- What decoding can answer, with what the header then is (R75). -/
theorem decode_cases (c : Command) :
    (illegalOpcode c.header = true ∧ decode c = .illegalOpcode) ∨
    (illegalOpcode c.header = false ∧ ∃ r ∈ opcodeRows, r.selects c.header = true ∧
      decode c = .instr (assembleOperands r.op c)) ∨
    (illegalOpcode c.header = false ∧ (∀ r ∈ opcodeRows, r.selects c.header = false) ∧
      decode c = .reservedNonzero) := by
  cases hi : illegalOpcode c.header with
  | true => exact .inl ⟨rfl, by simp [decode, hi]⟩
  | false =>
    right
    cases hf : opcodeRows.find? (fun r => r.selects c.header) with
    | some r =>
      exact .inl ⟨rfl, r, List.mem_of_find?_eq_some hf, List.find?_some (p := fun r : OpcodeRow => r.selects c.header) hf,
        by simp [decode, hi, hf]⟩
    | none =>
      refine .inr ⟨rfl, fun r hr => ?_, by simp [decode, hi, hf]⟩
      simpa using List.find?_eq_none.mp hf r hr

/-- The operation is read from the header alone: the ports never change which of R75's three things a command is. -/
theorem decode_illegal_iff (c : Command) : decode c = .illegalOpcode ↔ illegalOpcode c.header = true := by
  rcases decode_cases c with ⟨h, hd⟩ | ⟨h, r, _, _, hd⟩ | ⟨h, _, hd⟩ <;> simp [h, hd]

end Sys2Proof
end

