-- ==== Sys2Proof/Laws/State.lean ====
section
/-! SUPPORT. One lemma per field of `State` per shared update, true by `rfl`: no later proof unfolds a record update. -/

namespace Sys2Proof.Machine

/-! `respond` (R76) drives the response port and nothing else. -/

@[simp] theorem respond_enc0 (st : Status) (p0 p1 : Acc) (s : State) : (respond st p0 p1 s).enc0 = s.enc0 := rfl
@[simp] theorem respond_enc1 (st : Status) (p0 p1 : Acc) (s : State) : (respond st p0 p1 s).enc1 = s.enc1 := rfl
@[simp] theorem respond_life (st : Status) (p0 p1 : Acc) (s : State) : (respond st p0 p1 s).life = s.life := rfl
@[simp] theorem respond_faultCause (st : Status) (p0 p1 : Acc) (s : State) : (respond st p0 p1 s).faultCause = s.faultCause := rfl
@[simp] theorem respond_faultCmd (st : Status) (p0 p1 : Acc) (s : State) : (respond st p0 p1 s).faultCmd = s.faultCmd := rfl
@[simp] theorem respond_drainBusy (st : Status) (p0 p1 : Acc) (s : State) : (respond st p0 p1 s).drainBusy = s.drainBusy := rfl
@[simp] theorem respond_rsp (st : Status) (p0 p1 : Acc) (s : State) : (respond st p0 p1 s).rsp = some ⟨st, p0, p1⟩ := rfl
@[simp] theorem respond_chan (st : Status) (p0 p1 : Acc) (s : State) : (respond st p0 p1 s).chan = s.chan := rfl
@[simp] theorem respond_script (st : Status) (p0 p1 : Acc) (s : State) : (respond st p0 p1 s).script = s.script := rfl
@[simp] theorem respond_cycle (st : Status) (p0 p1 : Acc) (s : State) : (respond st p0 p1 s).cycle = s.cycle := rfl

/-! `respondOk` drives the response port and nothing else. -/

@[simp] theorem respondOk_enc0 (s : State) : (respondOk s).enc0 = s.enc0 := rfl
@[simp] theorem respondOk_enc1 (s : State) : (respondOk s).enc1 = s.enc1 := rfl
@[simp] theorem respondOk_life (s : State) : (respondOk s).life = s.life := rfl
@[simp] theorem respondOk_faultCause (s : State) : (respondOk s).faultCause = s.faultCause := rfl
@[simp] theorem respondOk_faultCmd (s : State) : (respondOk s).faultCmd = s.faultCmd := rfl
@[simp] theorem respondOk_drainBusy (s : State) : (respondOk s).drainBusy = s.drainBusy := rfl
@[simp] theorem respondOk_rsp (s : State) : (respondOk s).rsp = some ⟨.ok, 0, 0⟩ := rfl
@[simp] theorem respondOk_chan (s : State) : (respondOk s).chan = s.chan := rfl
@[simp] theorem respondOk_script (s : State) : (respondOk s).script = s.script := rfl
@[simp] theorem respondOk_cycle (s : State) : (respondOk s).cycle = s.cycle := rfl

/-! The response of FAULTED (R185). -/

@[simp] theorem respondFaulted_enc0 (s : State) : (respondFaulted s).enc0 = s.enc0 := rfl
@[simp] theorem respondFaulted_enc1 (s : State) : (respondFaulted s).enc1 = s.enc1 := rfl
@[simp] theorem respondFaulted_life (s : State) : (respondFaulted s).life = s.life := rfl
@[simp] theorem respondFaulted_faultCause (s : State) : (respondFaulted s).faultCause = s.faultCause := rfl
@[simp] theorem respondFaulted_faultCmd (s : State) : (respondFaulted s).faultCmd = s.faultCmd := rfl
@[simp] theorem respondFaulted_drainBusy (s : State) : (respondFaulted s).drainBusy = s.drainBusy := rfl
@[simp] theorem respondFaulted_rsp (s : State) : (respondFaulted s).rsp = some ⟨.fault, 0, 0⟩ := rfl
@[simp] theorem respondFaulted_chan (s : State) : (respondFaulted s).chan = s.chan := rfl
@[simp] theorem respondFaulted_script (s : State) : (respondFaulted s).script = s.script := rfl
@[simp] theorem respondFaulted_cycle (s : State) : (respondFaulted s).cycle = s.cycle := rfl

/-! A step that responds nothing. -/

@[simp] theorem quiet_enc0 (s : State) : (quiet s).enc0 = s.enc0 := rfl
@[simp] theorem quiet_enc1 (s : State) : (quiet s).enc1 = s.enc1 := rfl
@[simp] theorem quiet_life (s : State) : (quiet s).life = s.life := rfl
@[simp] theorem quiet_faultCause (s : State) : (quiet s).faultCause = s.faultCause := rfl
@[simp] theorem quiet_faultCmd (s : State) : (quiet s).faultCmd = s.faultCmd := rfl
@[simp] theorem quiet_drainBusy (s : State) : (quiet s).drainBusy = s.drainBusy := rfl
@[simp] theorem quiet_rsp (s : State) : (quiet s).rsp = none := rfl
@[simp] theorem quiet_chan (s : State) : (quiet s).chan = s.chan := rfl
@[simp] theorem quiet_script (s : State) : (quiet s).script = s.script := rfl
@[simp] theorem quiet_cycle (s : State) : (quiet s).cycle = s.cycle := rfl

/-! Fault entry (R180). -/

@[simp] theorem raiseFault_enc0 (cause : Cause) (h : Header) (s : State) : (raiseFault cause h s).enc0 = s.enc0 := rfl
@[simp] theorem raiseFault_enc1 (cause : Cause) (h : Header) (s : State) : (raiseFault cause h s).enc1 = s.enc1 := rfl
@[simp] theorem raiseFault_life (cause : Cause) (h : Header) (s : State) : (raiseFault cause h s).life = .faulted := rfl
@[simp] theorem raiseFault_faultCause (cause : Cause) (h : Header) (s : State) : (raiseFault cause h s).faultCause = cause.code := rfl
@[simp] theorem raiseFault_faultCmd (cause : Cause) (h : Header) (s : State) : (raiseFault cause h s).faultCmd = h := rfl
@[simp] theorem raiseFault_drainBusy (cause : Cause) (h : Header) (s : State) : (raiseFault cause h s).drainBusy = s.drainBusy := rfl
@[simp] theorem raiseFault_rsp (cause : Cause) (h : Header) (s : State) : (raiseFault cause h s).rsp = some ⟨.fault, 0, 0⟩ := rfl
@[simp] theorem raiseFault_chan (cause : Cause) (h : Header) (s : State) : (raiseFault cause h s).chan = s.chan := rfl
@[simp] theorem raiseFault_script (cause : Cause) (h : Header) (s : State) : (raiseFault cause h s).script = s.script := rfl
@[simp] theorem raiseFault_cycle (cause : Cause) (h : Header) (s : State) : (raiseFault cause h s).cycle = s.cycle := rfl

/-! Hardware reset (R210). -/

@[simp] theorem hwReset_enc0 (s : State) : (hwReset s).enc0 = .zero := rfl
@[simp] theorem hwReset_enc1 (s : State) : (hwReset s).enc1 = .zero := rfl
@[simp] theorem hwReset_life (s : State) : (hwReset s).life = .unconfigured := rfl
@[simp] theorem hwReset_faultCause (s : State) : (hwReset s).faultCause = 0 := rfl
@[simp] theorem hwReset_faultCmd (s : State) : (hwReset s).faultCmd = 0x0000 := rfl
@[simp] theorem hwReset_drainBusy (s : State) : (hwReset s).drainBusy = false := rfl
@[simp] theorem hwReset_rsp (s : State) : (hwReset s).rsp = none := rfl
@[simp] theorem hwReset_chan (s : State) : (hwReset s).chan = s.chan := rfl
@[simp] theorem hwReset_script (s : State) : (hwReset s).script = s.script := rfl
@[simp] theorem hwReset_cycle (s : State) : (hwReset s).cycle = s.cycle := rfl

/-! `ApplySample` (R125). -/

@[simp] theorem applySample_enc0 (w : Sample) (s : State) : (applySample w s).enc0 = (decodeEncoder s.enc0 (phase0 w)).1 := rfl
@[simp] theorem applySample_enc1 (w : Sample) (s : State) : (applySample w s).enc1 = (decodeEncoder s.enc1 (phase1 w)).1 := rfl
@[simp] theorem applySample_life (w : Sample) (s : State) : (applySample w s).life = s.life := rfl
@[simp] theorem applySample_faultCause (w : Sample) (s : State) : (applySample w s).faultCause = s.faultCause := rfl
@[simp] theorem applySample_faultCmd (w : Sample) (s : State) : (applySample w s).faultCmd = s.faultCmd := rfl
@[simp] theorem applySample_drainBusy (w : Sample) (s : State) : (applySample w s).drainBusy = s.drainBusy := rfl
@[simp] theorem applySample_rsp (w : Sample) (s : State) : (applySample w s).rsp = s.rsp := rfl
@[simp] theorem applySample_chan (w : Sample) (s : State) : (applySample w s).chan = s.chan := rfl
@[simp] theorem applySample_script (w : Sample) (s : State) : (applySample w s).script = s.script := rfl
@[simp] theorem applySample_cycle (w : Sample) (s : State) : (applySample w s).cycle = s.cycle := rfl

/-! `InitDecoder` (R163). -/

@[simp] theorem initDecoder_enc0 (s : State) : (initDecoder s).enc0 = .zero := rfl
@[simp] theorem initDecoder_enc1 (s : State) : (initDecoder s).enc1 = .zero := rfl
@[simp] theorem initDecoder_life (s : State) : (initDecoder s).life = s.life := rfl
@[simp] theorem initDecoder_faultCause (s : State) : (initDecoder s).faultCause = s.faultCause := rfl
@[simp] theorem initDecoder_faultCmd (s : State) : (initDecoder s).faultCmd = s.faultCmd := rfl
@[simp] theorem initDecoder_drainBusy (s : State) : (initDecoder s).drainBusy = s.drainBusy := rfl
@[simp] theorem initDecoder_rsp (s : State) : (initDecoder s).rsp = s.rsp := rfl
@[simp] theorem initDecoder_chan (s : State) : (initDecoder s).chan = s.chan := rfl
@[simp] theorem initDecoder_script (s : State) : (initDecoder s).script = s.script := rfl
@[simp] theorem initDecoder_cycle (s : State) : (initDecoder s).cycle = s.cycle := rfl

/-! `ReadComplete` (R143). -/

@[simp] theorem readComplete_enc0 (s : State) : (readComplete s).enc0 = s.enc0 := rfl
@[simp] theorem readComplete_enc1 (s : State) : (readComplete s).enc1 = s.enc1 := rfl
@[simp] theorem readComplete_life (s : State) : (readComplete s).life = s.life := rfl
@[simp] theorem readComplete_faultCause (s : State) : (readComplete s).faultCause = s.faultCause := rfl
@[simp] theorem readComplete_faultCmd (s : State) : (readComplete s).faultCmd = s.faultCmd := rfl
@[simp] theorem readComplete_drainBusy (s : State) : (readComplete s).drainBusy = false := rfl
@[simp] theorem readComplete_rsp (s : State) : (readComplete s).rsp = some ⟨.ok, position s.enc0.acc, position s.enc1.acc⟩ := rfl
@[simp] theorem readComplete_chan (s : State) : (readComplete s).chan = s.chan := rfl
@[simp] theorem readComplete_script (s : State) : (readComplete s).script = s.script := rfl
@[simp] theorem readComplete_cycle (s : State) : (readComplete s).cycle = s.cycle := rfl

/-! The accepting step of READ (R141). -/

@[simp] theorem startDrain_enc0 (s : State) : (startDrain s).enc0 = s.enc0 := rfl
@[simp] theorem startDrain_enc1 (s : State) : (startDrain s).enc1 = s.enc1 := rfl
@[simp] theorem startDrain_life (s : State) : (startDrain s).life = s.life := rfl
@[simp] theorem startDrain_faultCause (s : State) : (startDrain s).faultCause = s.faultCause := rfl
@[simp] theorem startDrain_faultCmd (s : State) : (startDrain s).faultCmd = s.faultCmd := rfl
@[simp] theorem startDrain_drainBusy (s : State) : (startDrain s).drainBusy = true := rfl
@[simp] theorem startDrain_rsp (s : State) : (startDrain s).rsp = none := rfl
@[simp] theorem startDrain_chan (s : State) : (startDrain s).chan = s.chan := rfl
@[simp] theorem startDrain_script (s : State) : (startDrain s).script = s.script := rfl
@[simp] theorem startDrain_cycle (s : State) : (startDrain s).cycle = s.cycle := rfl

/-! The writes of SEEK (R145). -/

@[simp] theorem seekBoth_enc0 (sel : BitVec 2) (v0 v1 : Acc) (s : State) : (seekBoth sel v0 v1 s).enc0 = seekEncoder (sel.getLsbD 0) v0 s.enc0 := rfl
@[simp] theorem seekBoth_enc1 (sel : BitVec 2) (v0 v1 : Acc) (s : State) : (seekBoth sel v0 v1 s).enc1 = seekEncoder (sel.getLsbD 1) v1 s.enc1 := rfl
@[simp] theorem seekBoth_life (sel : BitVec 2) (v0 v1 : Acc) (s : State) : (seekBoth sel v0 v1 s).life = s.life := rfl
@[simp] theorem seekBoth_faultCause (sel : BitVec 2) (v0 v1 : Acc) (s : State) : (seekBoth sel v0 v1 s).faultCause = s.faultCause := rfl
@[simp] theorem seekBoth_faultCmd (sel : BitVec 2) (v0 v1 : Acc) (s : State) : (seekBoth sel v0 v1 s).faultCmd = s.faultCmd := rfl
@[simp] theorem seekBoth_drainBusy (sel : BitVec 2) (v0 v1 : Acc) (s : State) : (seekBoth sel v0 v1 s).drainBusy = s.drainBusy := rfl
@[simp] theorem seekBoth_rsp (sel : BitVec 2) (v0 v1 : Acc) (s : State) : (seekBoth sel v0 v1 s).rsp = s.rsp := rfl
@[simp] theorem seekBoth_chan (sel : BitVec 2) (v0 v1 : Acc) (s : State) : (seekBoth sel v0 v1 s).chan = s.chan := rfl
@[simp] theorem seekBoth_script (sel : BitVec 2) (v0 v1 : Acc) (s : State) : (seekBoth sel v0 v1 s).script = s.script := rfl
@[simp] theorem seekBoth_cycle (sel : BitVec 2) (v0 v1 : Acc) (s : State) : (seekBoth sel v0 v1 s).cycle = s.cycle := rfl

/-! The producer's step (R20). -/

@[simp] theorem producerStep_enc0 (w : Sample) (s : State) : (producerStep w s).enc0 = s.enc0 := rfl
@[simp] theorem producerStep_enc1 (w : Sample) (s : State) : (producerStep w s).enc1 = s.enc1 := rfl
@[simp] theorem producerStep_life (w : Sample) (s : State) : (producerStep w s).life = s.life := rfl
@[simp] theorem producerStep_faultCause (w : Sample) (s : State) : (producerStep w s).faultCause = s.faultCause := rfl
@[simp] theorem producerStep_faultCmd (w : Sample) (s : State) : (producerStep w s).faultCmd = s.faultCmd := rfl
@[simp] theorem producerStep_drainBusy (w : Sample) (s : State) : (producerStep w s).drainBusy = s.drainBusy := rfl
@[simp] theorem producerStep_rsp (w : Sample) (s : State) : (producerStep w s).rsp = none := rfl
@[simp] theorem producerStep_chan (w : Sample) (s : State) : (producerStep w s).chan = chanAppend w s.chan := rfl
@[simp] theorem producerStep_script (w : Sample) (s : State) : (producerStep w s).script = s.script := rfl
@[simp] theorem producerStep_cycle (w : Sample) (s : State) : (producerStep w s).cycle = s.cycle := rfl

/-! The platform's step (R211). -/

@[simp] theorem platformStep_enc0 (ch : Channel) (s : State) : (platformStep ch s).enc0 = s.enc0 := rfl
@[simp] theorem platformStep_enc1 (ch : Channel) (s : State) : (platformStep ch s).enc1 = s.enc1 := rfl
@[simp] theorem platformStep_life (ch : Channel) (s : State) : (platformStep ch s).life = s.life := rfl
@[simp] theorem platformStep_faultCause (ch : Channel) (s : State) : (platformStep ch s).faultCause = s.faultCause := rfl
@[simp] theorem platformStep_faultCmd (ch : Channel) (s : State) : (platformStep ch s).faultCmd = s.faultCmd := rfl
@[simp] theorem platformStep_drainBusy (ch : Channel) (s : State) : (platformStep ch s).drainBusy = s.drainBusy := rfl
@[simp] theorem platformStep_rsp (ch : Channel) (s : State) : (platformStep ch s).rsp = none := rfl
@[simp] theorem platformStep_chan (ch : Channel) (s : State) : (platformStep ch s).chan = chanReplaced ch s.chan := rfl
@[simp] theorem platformStep_script (ch : Channel) (s : State) : (platformStep ch s).script = s.script := rfl
@[simp] theorem platformStep_cycle (ch : Channel) (s : State) : (platformStep ch s).cycle = s.cycle := rfl

/-! Placing a command on the port. -/

@[simp] theorem placeCommand_enc0 (c : Command) (s : State) : (placeCommand c s).enc0 = s.enc0 := rfl
@[simp] theorem placeCommand_enc1 (c : Command) (s : State) : (placeCommand c s).enc1 = s.enc1 := rfl
@[simp] theorem placeCommand_life (c : Command) (s : State) : (placeCommand c s).life = s.life := rfl
@[simp] theorem placeCommand_faultCause (c : Command) (s : State) : (placeCommand c s).faultCause = s.faultCause := rfl
@[simp] theorem placeCommand_faultCmd (c : Command) (s : State) : (placeCommand c s).faultCmd = s.faultCmd := rfl
@[simp] theorem placeCommand_drainBusy (c : Command) (s : State) : (placeCommand c s).drainBusy = false := rfl
@[simp] theorem placeCommand_rsp (c : Command) (s : State) : (placeCommand c s).rsp = s.rsp := rfl
@[simp] theorem placeCommand_chan (c : Command) (s : State) : (placeCommand c s).chan = s.chan := rfl
@[simp] theorem placeCommand_script (c : Command) (s : State) : (placeCommand c s).script = .command c :: s.script := rfl
@[simp] theorem placeCommand_cycle (c : Command) (s : State) : (placeCommand c s).cycle = s.cycle := rfl

end Sys2Proof.Machine
end

