-- ==== Sys2Proof/Laws/Ops.lean ====
section
/-! SUPPORT. What each shared operation over the block's registers can do: one lemma each, cited instead of unfolding it. -/

namespace Sys2Proof.Machine

/-- The checks of R184 have three outcomes: turned away in FAULTED, a lifecycle fault, or the run. -/
theorem checked_cases (check : Life → Option Cause) (h : Header) (run : State → State) (s : State) :
    (s.life = .faulted ∧ checked check h run s = respondFaulted s) ∨
    (∃ cause, s.life ≠ .faulted ∧ check s.life = some cause ∧ checked check h run s = raiseFault cause h s) ∨
    (s.life ≠ .faulted ∧ check s.life = none ∧ checked check h run s = run s) := by
  unfold checked
  cases hl : s.life <;> cases hc : check _ <;> simp_all

/-- In FAULTED every command is turned away (R185). -/
theorem checked_faulted {check : Life → Option Cause} {h : Header} {run : State → State} {s : State}
    (hl : s.life = .faulted) : checked check h run s = respondFaulted s := by
  simp [checked, hl]

/-- A command whose check passes runs (R184). -/
theorem checked_run {check : Life → Option Cause} {h : Header} {run : State → State} {s : State}
    (hl : s.life ≠ .faulted) (hc : check s.life = none) : checked check h run s = run s := by
  rcases checked_cases check h run s with ⟨h1, _⟩ | ⟨c, _, h2, _⟩ | ⟨_, _, h3⟩
  · exact absurd h1 hl
  · simp [hc] at h2
  · exact h3

/-- A command whose lifecycle check fails raises that fault (R184). -/
theorem checked_fault {check : Life → Option Cause} {h : Header} {run : State → State} {s : State} {cause : Cause}
    (hl : s.life ≠ .faulted) (hc : check s.life = some cause) : checked check h run s = raiseFault cause h s := by
  rcases checked_cases check h run s with ⟨h1, _⟩ | ⟨c, _, h2, h3⟩ | ⟨_, h2, _⟩
  · exact absurd h1 hl
  · rw [hc] at h2; cases h2; exact h3
  · simp [hc] at h2

/-- The three fields of one encoder after one sample (R121 to R124). -/
@[simp] theorem decodeEncoder_prev {W : Nat} (e : Encoder W) (p : Phase) : (decodeEncoder e p).1.prev = p := rfl

@[simp] theorem decodeEncoder_hint {W : Nat} (e : Encoder W) (p : Phase) :
    (decodeEncoder e p).1.hint = nextHint e.hint (delta e p) := rfl

@[simp] theorem decodeEncoder_acc {W : Nat} (e : Encoder W) (p : Phase) :
    (decodeEncoder e p).1.acc = accumulate e.acc (delta e p) := rfl

@[simp] theorem decodeEncoder_delta {W : Nat} (e : Encoder W) (p : Phase) : (decodeEncoder e p).2 = delta e p := rfl

/-- A delta of zero changes neither the hint nor the accumulator (R122, R123). -/
@[simp] theorem nextHint_zero (h : Bool) : nextHint h 0 = h := by simp [nextHint]

@[simp] theorem accumulate_zero {W : Nat} (a : BitVec W) : accumulate a 0 = a := by simp [accumulate]

/-- The diagonal of the table is zero (R104 item 3). -/
theorem lut_diagonal (h : Bool) (p : Phase) : lut h (transitionIndex p p) = 0 := by revert h p; decide

/-- A drain step pops and applies the oldest sample, or completes the READ on an empty FIFO (R142, R143). -/
theorem drainStep_cases (s : State) :
    (∃ w rest, s.chan.fifo = w :: rest ∧
      drainStep s = applySample w { s with chan := { s.chan with fifo := rest }, rsp := none }) ∨
    (s.chan.fifo = [] ∧ drainStep s = readComplete s) := by
  cases h : s.chan.fifo with
  | nil => exact .inr ⟨rfl, by simp [drainStep, chanAvail, chanRead, h]⟩
  | cons w rest => exact .inl ⟨w, rest, rfl, by simp [drainStep, chanAvail, chanRead, h]⟩

theorem drainStep_empty {s : State} (h : s.chan.fifo = []) : drainStep s = readComplete s := by
  simp [drainStep, chanAvail, chanRead, h]

theorem drainStep_sample {s : State} {w : Sample} {rest : List Sample} (h : s.chan.fifo = w :: rest) :
    drainStep s = applySample w { s with chan := { s.chan with fifo := rest }, rsp := none } := by
  simp [drainStep, chanAvail, chanRead, h]

/-- CONFIGURE past its checks constructs or is rejected, by the channel's answer (R161, R162). -/
theorem construct_cases (l : Lines) (s : State) :
    (validateAnswer s.chan l = true ∧
      construct l s = respondOk { initDecoder s with
        life := .active, chan := { drawnValidate s.chan with bound := some l } }) ∨
    (validateAnswer s.chan l = false ∧
      construct l s = respond .configError 0 0 { s with chan := drawnValidate s.chan }) := by
  rcases chanValidate_cases s.chan l with ⟨ha, hv⟩ | ⟨ha, hv⟩
  · exact .inl ⟨ha, by simp [construct, hv, respondOk, respond, initDecoder]⟩
  · exact .inr ⟨ha, by simp [construct, hv]⟩

/-- RELEASE of an active decoder succeeds or faults, by the channel's answer (R164, R166). -/
theorem tearDown_cases (s : State) :
    (releaseAnswer s.chan = true ∧
      tearDown s = respondOk { s with chan := chanReleased (drawnRelease s.chan), life := .released }) ∨
    (releaseAnswer s.chan = false ∧
      tearDown s = raiseFault .teardownFailure 0x0005
        { s with chan := chanReleaseFailed (drawnRelease s.chan) }) := by
  rcases chanRelease_cases s.chan with ⟨ha, hv⟩ | ⟨ha, hv⟩
  · exact .inl ⟨ha, by simp [tearDown, hv]⟩
  · exact .inr ⟨ha, by simp [tearDown, hv, encodeHeader]⟩

/-- RELEASE past its checks: repeated in RELEASED, a teardown elsewhere (R164, R165). -/
theorem releaseOrKeep_cases (s : State) :
    (s.life = .released ∧ releaseOrKeep s = respondOk s) ∨ (s.life ≠ .released ∧ releaseOrKeep s = tearDown s) := by
  cases hl : s.life <;> simp [releaseOrKeep, hl]

end Sys2Proof.Machine
end

