-- ==== Sys2Proof/Laws/PerInstr.lean ====
section
/-! SUPPORT. The families of per-instruction lemmas that LAWS.json names. -/

namespace Sys2Proof.Laws.HeaderRow

/-- The operation an instruction belongs to (R72). -/
def opOf : Instr → Op
  | .nop => .nop
  | .consume _ => .consume
  | .read => .read
  | .seek _ _ _ => .seek
  | .configure _ _ _ _ => .configure
  | .release => .release

/-- The header of an instruction is selected by its own row of R73 and by no other, and is no illegal opcode. -/
def Statement (i : Instr) : Prop :=
  illegalOpcode (encodeHeader i) = false ∧
    ∀ r ∈ opcodeRows, r.selects (encodeHeader i) = true ↔ r.op = opOf i

theorem nop : Statement .nop := by unfold Statement; decide

theorem consume (smp : Sample) : Statement (.consume smp) := by
  unfold Statement; revert smp; decide

theorem read : Statement .read := by unfold Statement; decide

theorem seek (sel : BitVec 2) (v0 v1 : Acc) : Statement (.seek sel v0 v1) := by
  simp only [Statement, encodeHeader, opOf]; revert sel; decide

theorem configure (l0 l1 l2 l3 : LineId) : Statement (.configure l0 l1 l2 l3) := by
  simp only [Statement, encodeHeader, opOf]; decide

theorem release : Statement .release := by unfold Statement; decide

end Sys2Proof.Laws.HeaderRow
end

