-- ==== Sys2Proof/Laws/Step.lean ====
section
/-! SUPPORT. What accepting a command and one step can do: the inversion lemmas every whole-machine proof starts from. -/

namespace Sys2Proof.Machine

/-- Accepting a command runs the decoded instruction, or takes the encoding fault behind the FAULTED check (R184). -/
theorem acceptCommand_cases (c : Command) (s : State) :
    (∃ i, decode c = .instr i ∧ acceptCommand c s = exec i s) ∨
    (decode c = .illegalOpcode ∧ acceptCommand c s = .next (rejectHeader .illegalOpcode c.header s)) ∨
    (decode c = .reservedNonzero ∧ acceptCommand c s = .next (rejectHeader .reservedNonzero c.header s)) := by
  unfold acceptCommand
  cases h : decode c with
  | instr i => exact .inl ⟨i, rfl, rfl⟩
  | illegalOpcode => exact .inr (.inl ⟨rfl, rfl⟩)
  | reservedNonzero => exact .inr (.inr ⟨rfl, rfl⟩)

/-- A rejected header is turned away in FAULTED and raises its fault elsewhere (R184, R185). -/
theorem rejectHeader_cases (cause : Cause) (h : Header) (s : State) :
    (s.life = .faulted ∧ rejectHeader cause h s = respondFaulted s) ∨
    (s.life ≠ .faulted ∧ rejectHeader cause h s = raiseFault cause h s) := by
  unfold rejectHeader
  rcases checked_cases needsNothing h (raiseFault cause h) s with ⟨h1, h2⟩ | ⟨c, _, h2, _⟩ | ⟨h1, _, h3⟩
  · exact .inl ⟨h1, h2⟩
  · cases hl : s.life <;> simp [needsNothing, hl] at h2
  · exact .inr ⟨h1, h3⟩

/-- The move that is taken leaves everything but the moves as it was. -/
theorem nextMove_frame {s s' : State} {e : Event} (h : nextMove s = some (e, s')) :
    ∃ rest, s' = { s with script := rest } := by
  unfold nextMove at h
  split at h <;> simp only [Option.some.injEq, Prod.mk.injEq, reduceCtorEq] at h
  · exact ⟨_, h.2.symm⟩
  · exact ⟨_, h.2.symm⟩

/-- The block's turn is a drain step or nothing (R142). -/
theorem blockTurn_cases (s : State) :
    (s.drainBusy = true ∧ blockTurn s = drainStep s) ∨ (s.drainBusy = false ∧ blockTurn s = quiet s) := by
  cases h : s.drainBusy <;> simp [blockTurn, h]

/-- Everything one step can be (R20): the block's turn with no move left, a drain step with a command waiting, a command
accepted, or the move of another agent. -/
theorem step_cases (s : State) :
    (nextMove s = none ∧ step s = .next (blockTurn s)) ∨
    (∃ c s', nextMove s = some (.command c, s') ∧ s.drainBusy = true ∧ step s = .next (drainStep s)) ∨
    (∃ c s', nextMove s = some (.command c, s') ∧ s.drainBusy = false ∧ step s = acceptCommand c s') ∨
    (∃ s', nextMove s = some (.turn, s') ∧ step s = .next (blockTurn s')) ∨
    (∃ w s', nextMove s = some (.sample w, s') ∧ step s = .next (producerStep w s')) ∨
    (∃ s', nextMove s = some (.reset, s') ∧ step s = .next (hwReset s')) ∨
    (∃ ch s', nextMove s = some (.platform ch, s') ∧ step s = .next (platformStep ch s')) := by
  unfold step
  rcases h : nextMove s with _ | ⟨e, s'⟩
  · simp
  · cases e <;> cases hb : s.drainBusy <;> simp

end Sys2Proof.Machine
end

