-- ==== Sys2Proof/Tests/Slice0.lean ====
section
/-! SUPPORT. The model's own tests, with expected results from spec/95_test_vectors.md (the vector is named in each comment),
and for every statement with hypotheses a concrete state and operands that meet them. Vectors of accumulator values and
of line identifiers run at the reference widths, 32 and 8, on the functions of any width; tests of a whole state hold at
every width R5 allows. -/

namespace Sys2Proof.Tests

open Sys2Proof.Machine

/-- A small state: a lifecycle state, the two encoders, and a FIFO. -/
def st (life : Life) (e0 e1 : Encoder Config.accWidth) (fifo : List Sample) : State :=
  { State.reset with life := life, enc0 := e0, enc1 := e1, chan := { Channel.initial with fifo := fifo } }

/-- ACTIVE0 of spec/95_test_vectors.md, with an empty FIFO. -/
def active0 : State := st .active .zero .zero []

/-- What a step or an instruction leaves, read by `f`. -/
def after {α : Type} (o : Host.Outcome State Fault Refusal) (f : State → α) : Option α :=
  match o with
  | .next s => some (f s)
  | .fault _ => none
  | .refused _ => none

/-! ## Well-formedness: each check refuses an ill-formed term -/

theorem test_wf_refuses_unselected_v0 : (Instr.seek 0b10 5 1).wellFormed = false := by
  simpa [Instr.wellFormed, seekPortOk] using Acc.ofNat_ne (n := 5) (m := 0) (by decide) (by decide) (by decide)

theorem test_wf_refuses_unselected_v1 : (Instr.seek 0b01 5 1).wellFormed = false := by
  simpa [Instr.wellFormed, seekPortOk] using Acc.ofNat_ne (n := 1) (m := 0) (by decide) (by decide) (by decide)

theorem test_wf_accepts_both_selected : (Instr.seek 0b11 5 1).wellFormed = true := by decide

/-! ## Decoding: a word of every row, written from R73's fields (op [2:0], smp [7:4], sel [9:8]) -/

theorem test_decode_nop : decode (.ofHeader 0b000000_00_0000_0_000#16) = .instr .nop := by decide

theorem test_decode_consume : decode (.ofHeader 0b000000_00_1001_0_001#16) = .instr (.consume 0b1001) := by decide

theorem test_decode_read : decode (.ofHeader 0b000000_00_0000_0_010#16) = .instr .read := by decide

theorem test_decode_seek :
    decode { Command.ofHeader 0b000000_01_0000_0_011#16 with v0 := 10, v1 := 7 } = .instr (.seek 0b01 10 0) := rfl

theorem test_decode_configure :
    decode { Command.ofHeader 0b000000_00_0000_0_100#16 with l0 := 4, l1 := 5, l2 := 6, l3 := 7 } =
      .instr (.configure 4 5 6 7) := rfl

theorem test_decode_release : decode (.ofHeader 0b000000_00_0000_0_101#16) = .instr .release := by decide

/-- The decoding list under table F: 0x0006, 0x0007, 0xFFFF and 0x8006 are ILLEGAL_OPCODE. -/
theorem test_decode_illegal :
    [0x0006#16, 0x0007#16, 0xFFFF#16, 0x8006#16].all (fun h => decode (.ofHeader h) = .illegalOpcode) = true := by decide

/-- The same list: 0x0008, 0x8000, 0x0020 and 0x0102 are RESERVED_NONZERO. -/
theorem test_decode_reserved :
    [0x0008#16, 0x8000#16, 0x0020#16, 0x0102#16].all (fun h => decode (.ofHeader h) = .reservedNonzero) = true := by decide

/-! ## One encoder, one sample (table D) and positions (table P) -/

/-- D3: (00, 1, 5) on phase 10 gives -1. -/
theorem test_D3 : decodeEncoder (⟨0b00, true, 5⟩ : Encoder 32) 0b10 = (⟨0b10, false, 4⟩, -1) := by decide

/-- D9: (10, 0, 0) on phase 01 is a double transition, -2. -/
theorem test_D9 : decodeEncoder (⟨0b10, false, 0⟩ : Encoder 32) 0b01 = (⟨0b01, false, -2⟩, -2) := by decide

/-- D12: a double step wraps upward. -/
theorem test_D12 :
    decodeEncoder (⟨0b00, true, 0x7FFFFFFE⟩ : Encoder 32) 0b11 = (⟨0b11, true, 0x80000000⟩, 2) := by decide

/-- R105's example: address 19 holds +2 and address 3 holds -2. -/
theorem test_rom : romEntry 19 = 2 ∧ romEntry 3 = -2 := by decide

/-- Table P at -1, -4, -5 and the ends of the range. -/
theorem test_P :
    position (-1 : BitVec 32) = -1 ∧ position (-4 : BitVec 32) = -1 ∧ position (-5 : BitVec 32) = -2 ∧
      position (0x7FFFFFFF : BitVec 32) = 0x1FFFFFFF ∧ position (0x80000000 : BitVec 32) = 0xE0000000 := by decide

/-- P1: one clockwise cycle gives acc 4 and position 1. -/
theorem test_P1 :
    feed [0b00, 0b01, 0b11, 0b10, 0b00] (Encoder.zero : Encoder 32) = ⟨0b00, true, 4⟩ ∧
      position (4 : BitVec 32) = 1 := by decide

/-- K5: a seek to 0x20000000 loses its top bits; K3: one to -1 gives -4. -/
theorem test_seekValue :
    seekEncoder true 0x20000000 (Encoder.zero : Encoder 32) = ⟨0b00, false, 0x80000000⟩ ∧
      seekEncoder true (-1) (⟨0, false, 9⟩ : Encoder 32) = ⟨0, false, -4⟩ := by decide

/-- The vectors' reference channel accepts (4,5,6,7), and neither (0,1,2,4) nor (253,254,255,0). -/
theorem test_reference_channel :
    referenceSequential (⟨4, 5, 6, 7⟩ : LinesOf 8) = true ∧ referenceSequential (⟨0, 1, 2, 4⟩ : LinesOf 8) = false ∧
      referenceSequential (⟨253, 254, 255, 0⟩ : LinesOf 8) = false := by decide

/-! ## One step of each instruction -/

/-- F1: NOP in UNCONFIGURED responds OK. -/
theorem test_F1 : after (exec .nop State.reset) State.rsp = some (some ⟨.ok, 0, 0⟩) := by decide

/-- F21: NOP in FAULTED responds FAULT. -/
theorem test_F21 : after (exec .nop (st .faulted .zero .zero [])) State.rsp = some (some ⟨.fault, 0, 0⟩) := by decide

/-- C2: CONSUME 9 on ACTIVE0. -/
theorem test_C2 :
    after (exec (.consume 9) active0) (fun s => (s.enc0, s.enc1)) =
      some (⟨0b01, true, BitVec.ofInt _ 1⟩, ⟨0b10, false, BitVec.ofInt _ (-1)⟩) :=
  congrArg some (Prod.ext (congrArg (Encoder.mk 0b01 true) (BitVec.zero_add _))
    (congrArg (Encoder.mk 0b10 false) (BitVec.zero_add _)))

/-- F2: CONSUME in UNCONFIGURED faults with cause 3 and header 0x0001. -/
theorem test_F2 :
    after (exec (.consume 0) State.reset) (fun s => (s.life, s.faultCause, s.faultCmd)) =
      some (.faulted, 3, 0x0001) := by decide

/-- R4: the drain step of a READ on an empty FIFO with acc (-6, 0) responds both positions; that of -6 is -2. -/
theorem test_R4 :
    after (step { st .active ⟨0, false, -6⟩ .zero [] with drainBusy := true }) (fun s => (s.rsp, s.drainBusy)) =
      some (some ⟨.ok, position (-6), position 0⟩, false) ∧ position (-6 : BitVec 32) = -2 := ⟨rfl, by decide⟩

/-- F9: READ in RELEASED faults with cause 4. -/
theorem test_F9 :
    after (exec .read (st .released .zero .zero [])) (fun s => (s.faultCause, s.faultCmd, s.drainBusy)) =
      some (4, 0x0002, false) := by decide

/-- K3: SEEK 2, _, -1 on acc (5, 9) writes accumulator 1 alone. -/
theorem test_K3 :
    after (exec (.seek 2 0 (-1)) (st .active ⟨0, false, 5⟩ ⟨0, false, 9⟩ [])) (fun s => (s.enc0.acc, s.enc1.acc)) =
      some (5, seekValue (-1)) := rfl

/-- A state whose channel answers `b` to every validation. -/
def answering (b : Bool) : State := { State.reset with chan := { Channel.initial with validate := .fixed b } }

/-- F3: CONFIGURE on lines the channel rejects responds CONFIG_ERROR. -/
theorem test_F3 :
    after (exec (.configure 0 1 2 4) (answering false)) (fun s => (s.rsp, s.life, s.chan.bound)) =
      some (some ⟨.configError, 0, 0⟩, .unconfigured, none) := by decide

/-- F4: CONFIGURE on lines the channel accepts constructs and binds them in order. -/
theorem test_F4 :
    after (exec (.configure 4 5 6 7) (answering true)) (fun s => (s.rsp, s.life, s.chan.bound)) =
      some (some ⟨.ok, 0, 0⟩, .active, some ⟨4, 5, 6, 7⟩) := rfl

/-- F6: RELEASE in ACTIVE when the channel releases. -/
theorem test_F6 :
    after (exec .release { active0 with chan := { Channel.initial with release := .fixed true } })
      (fun s => (s.rsp, s.life)) = some (some ⟨.ok, 0, 0⟩, .released) := by decide

/-- F7: RELEASE in ACTIVE when the channel does not. -/
theorem test_F7 :
    after (exec .release { active0 with chan := { Channel.initial with release := .fixed false } })
      (fun s => (s.life, s.faultCause, s.faultCmd)) = some (.faulted, 6, 0x0005) := by decide

/-- F14: header 0x0107 in ACTIVE is ILLEGAL_OPCODE, because the opcode check comes first. -/
theorem test_F14 :
    after (step (active0.withFetchWord 16 0x0107)) (fun s => (s.faultCause, s.faultCmd)) = some (1, 0x0107) := by decide

/-- F19: header 0x0012 in UNCONFIGURED is RESERVED_NONZERO, before the lifecycle check. -/
theorem test_F19 :
    after (step (State.reset.withFetchWord 16 0x0012)) (fun s => (s.faultCause, s.faultCmd)) = some (2, 0x0012) := by decide

/-- F22: reset leaves FAULTED and clears the record. -/
theorem test_F22 :
    after (step { st .faulted .zero .zero [] with faultCause := 3, faultCmd := 1, script := [.reset] })
      (fun s => (s.life, s.faultCause, s.faultCmd)) = some (.unconfigured, 0, 0) := by decide

/-! ## Witnesses: states and operands that meet the hypotheses of the statements -/

/-- A READ in progress with one sample in the FIFO. -/
def draining : State := { st .active .zero .zero [1] with drainBusy := true }

/-- ACTIVE0 with a command next. -/
def nextIs (s : State) (e : Event) : State := { s with script := [e] }

theorem wit_EncodedInstructionDecodesBack :
    (Instr.seek 1 5 0).wellFormed = true ∧ (Instr.seek 3 5 6).wellFormed = true ∧ (Instr.configure 0 255 1 2).wellFormed = true := by
  decide

theorem wit_DecodedInstructionHoldsTheCommand :
    decode { Command.ofHeader 0x0203 with v0 := 9, v1 := 5 } = .instr (.seek 2 0 5) := rfl

theorem wit_StepRunsTheDecodedInstruction :
    ((nextIs active0 (hostMove .nop)).script = .command (encode .nop) :: [] ∧
      (nextIs active0 (hostMove .nop)).drainBusy = false ∧ decode (encode .nop) = .instr .nop) ∧
    (active0.script = [] ∧ { active0 with cycle := [hostMove .read] }.cycle = .command (encode .read) :: [] ∧
      decode (encode .read) = .instr .read) ∧
    decodeTableWord 16 0x00F1 = some (.consume 15) := by decide

theorem wit_CommandWaitsWhileReadDrains :
    (nextIs draining (hostMove .nop)).script = .command (encode .nop) :: [] ∧
      (nextIs draining (hostMove .nop)).drainBusy = true := by decide

theorem wit_IllegalOpcodeFaults :
    let s := nextIs active0 (.command (.ofHeader 0xFFFE#16))
    s.script = .command (.ofHeader 0xFFFE#16) :: [] ∧ s.drainBusy = false ∧ s.life ≠ .faulted ∧
      (0xFFFE#16).extractLsb' 0 3 = 0b110#3 := by decide

theorem wit_ReservedBitFaults :
    let s := nextIs active0 (.command (.ofHeader 0x0008#16))
    s.script = .command (.ofHeader 0x0008#16) :: [] ∧ s.drainBusy = false ∧ s.life ≠ .faulted ∧
      ¬((0x0008#16).extractLsb' 0 3 = 0b110#3 ∨ (0x0008#16).extractLsb' 0 3 = 0b111#3) ∧
      (0x0008#16 &&& 0xFFFF#16 ≠ 0x0000#16 ∧ 0x0008#16 &&& 0xFF0F#16 ≠ 0x0001#16 ∧
        0x0008#16 &&& 0xFFFF#16 ≠ 0x0002#16 ∧ 0x0008#16 &&& 0xFCFF#16 ≠ 0x0003#16 ∧
        0x0008#16 &&& 0xFFFF#16 ≠ 0x0004#16 ∧ 0x0008#16 &&& 0xFFFF#16 ≠ 0x0005#16) := by decide

theorem wit_FaultedBlockOnlyAnswersFault :
    let s := nextIs (st .faulted .zero .zero [1]) (hostMove (.configure 0 1 2 3))
    s.life = .faulted ∧ s.drainBusy = false ∧ s.script = .command (encode (.configure 0 1 2 3)) :: [] := ⟨rfl, rfl, rfl⟩

theorem wit_OneSampleUpdatesOneEncoder : 4 ≤ 4 ∧ 4 ≤ Config.accWidth := by decide

/-- Width 4, at and away from both ends of the range. -/
theorem wit_SampleStepIsBounded :
    let up : Encoder 4 := ⟨0b00, true, 6⟩
    let down : Encoder 4 := ⟨0b00, false, -8⟩
    let mid : Encoder 4 := ⟨0b00, true, 3⟩
    (2 ^ (4 - 1) : Int) ≤ up.acc.toInt + (decodeEncoder up 0b11).2 ∧
    down.acc.toInt + (decodeEncoder down 0b10).2 < -(2 ^ (4 - 1) : Int) ∧
    -(2 ^ (4 - 1) : Int) ≤ mid.acc.toInt + (decodeEncoder mid 0b11).2 ∧
    mid.acc.toInt + (decodeEncoder mid 0b11).2 < (2 ^ (4 - 1) : Int) := by decide

theorem wit_RepeatedSampleChangesNothing :
    active0.life = .active ∧ ∃ t, exec (.consume 15) active0 = .next t := ⟨by decide, _, rfl⟩

theorem wit_AccumulatorWraps : 4 ≤ 4 ∧ 4 ≤ Config.accWidth := by decide

theorem wit_FullCycleIsFourQuarterCounts : (⟨0b00, true, 7⟩ : Encoder 4).prev = 0b00 := by decide

/-- Two states that differ in encoder 1 and in the encoder 1 bits of the FIFO. -/
theorem wit_CommandsKeepTheLanesApart :
    AgreeOnEncoder0 (st .active .zero .zero [0b0001]) (st .active .zero ⟨0b11, true, 9⟩ [0b1101]) ∧
    AgreeOnEncoder1 (st .active .zero .zero [0b0100]) (st .active ⟨0b11, true, 9⟩ .zero [0b0111]) ∧
    phase0 0b0110 = phase0 0b1010 ∧ phase1 0b0110 = phase1 0b0101 ∧
    (1#2).getLsbD 0 = (3#2).getLsbD 0 ∧ (2#2).getLsbD 1 = (3#2).getLsbD 1 ∧
    (∃ t, exec (.consume 0b0110) active0 = .next t) ∧ (∃ t, exec .read active0 = .next t) ∧
    (∃ t, exec (.seek 1 4 5) active0 = .next t) :=
  ⟨⟨rfl, rfl, rfl, rfl⟩, ⟨rfl, rfl, rfl, rfl⟩, by decide, by decide, by decide, by decide, ⟨_, rfl⟩, ⟨_, rfl⟩, ⟨_, rfl⟩⟩

theorem wit_ConsumeUpdatesBothEncoders : active0.life = .active := by decide

theorem wit_LifecycleFaultsAreTaken :
    State.reset.life = .unconfigured ∧ (st .released .zero .zero []).life = .released ∧ active0.life = .active := by decide

theorem wit_ReadMakesThePortBusy : active0.life = .active := by decide

theorem wit_DrainStepAppliesTheOldestSample :
    (draining.drainBusy = true ∧ HostOnly draining.script draining.cycle ∧ draining.chan.fifo = 1 :: []) ∧
    (HostOnly [hostMove .nop] [] ∧ { st .active .zero .zero [] with drainBusy := true }.chan.fifo = []) ∧
    (nextIs draining .turn).script = .turn :: [] :=
  ⟨⟨rfl, trivial, rfl⟩, ⟨trivial, rfl⟩, rfl⟩

theorem wit_ReadDrainsEverythingThenAnswers :
    (draining.drainBusy = true ∧ HostOnly draining.script draining.cycle) ∧
    (let s := { st .active .zero .zero [6, 15, 9, 0] with script := [hostMove .read, hostMove .nop] }
     s.life = .active ∧ s.drainBusy = false ∧ s.script = hostMove .read :: [hostMove .nop] ∧
       HostOnly [hostMove .nop] s.cycle) :=
  ⟨⟨rfl, trivial⟩, rfl, rfl, rfl, trivial⟩

/-- A READ that a live producer holds for ever: the state before the producer's move, and the one before the block's turn. -/
def heldBefore : State :=
  { st .active .zero .zero [0] with drainBusy := true, cycle := [.sample 0, .turn] }

def heldAfter : State :=
  { st .active .zero .zero [0, 0] with drainBusy := true, script := [.turn], cycle := [.sample 0, .turn] }

def held (n : Nat) : State := if n % 2 = 0 then heldBefore else heldAfter

theorem held_even {n : Nat} (h : n % 2 = 0) : held n = heldBefore := if_pos h

theorem held_odd {n : Nat} (h : n % 2 = 1) : held n = heldAfter := if_neg (by omega)

theorem wit_ReadNeverCompletesWhileSamplesKeepComing :
    ((held 0).drainBusy = true ∧ (∀ n, step (held n) = .next (held (n + 1))) ∧
      (∀ n, (∀ w s', nextMove (held n) ≠ some (.sample w, s')) → (∀ ch s', nextMove (held n) ≠ some (.platform ch, s')) →
        chanAvail (held n).chan = true) ∧
      (∀ n s', nextMove (held n) ≠ some (.reset, s'))) ∧
    ((held 0).script = [] ∧ (held 0).cycle = [.sample 0, .turn] ∧ (held 0).chan.fifo.length < (held 0).chan.depth) := by
  refine ⟨⟨rfl, fun n => ?_, fun n _ _ => ?_, fun n s' => ?_⟩, rfl, rfl, by decide⟩
  · rcases Nat.mod_two_eq_zero_or_one n with h | h
    · rw [held_even h, held_odd (n := n + 1) (by omega)]; rfl
    · rw [held_odd h, held_even (n := n + 1) (by omega)]; rfl
  · rcases Nat.mod_two_eq_zero_or_one n with h | h
    · rw [held_even h]; decide
    · rw [held_odd h]; decide
  · rcases Nat.mod_two_eq_zero_or_one n with h | h
    · rw [held_even h]; simp [heldBefore, nextMove, st, State.reset]
    · rw [held_odd h]; simp [heldAfter, nextMove]

theorem wit_TwoReadsInARowAgree :
    let s := { st .active ⟨0, false, 5⟩ .zero [1, 3] with script := [hostMove .read, hostMove .read] }
    s.life = .active ∧ s.drainBusy = false ∧ s.cycle = [] ∧ s.script = [hostMove .read, hostMove .read] := by decide

theorem wit_PositionIsTheFloorOfAQuarter : 4 ≤ 4 ∧ 4 ≤ Config.accWidth := by decide

theorem wit_SeekOverwritesTheSelectedAccumulators : active0.life = .active := by decide

theorem wit_SeekThenReadRoundTrip :
    (-(2 ^ (4 - 3) : Int) ≤ (-2 : BitVec 4).toInt ∧ (1 : BitVec 4).toInt ≤ 2 ^ (4 - 3) - 1) ∧
    (let s := { active0 with script := [hostMove (.seek 1 7 0), hostMove .read] }
     s.life = .active ∧ s.drainBusy = false ∧ s.chan.fifo = [] ∧ s.cycle = [] ∧
       s.script = [hostMove (.seek 1 7 0), hostMove .read]) ∧
    { active0 with script := [hostMove (.seek 2 0 7), hostMove .read] }.script =
      [hostMove (.seek 2 0 7), hostMove .read] := ⟨by decide, ⟨rfl, rfl, rfl, rfl, rfl⟩, rfl⟩

theorem wit_SeekKeepsPhaseAndHint :
    active0.life = .active ∧ ∃ t u v, exec (.seek 1 5 0) active0 = .next t ∧ exec (.consume 3) t = .next u ∧
      exec (.consume 3) active0 = .next v := ⟨by decide, _, _, _, rfl, rfl, rfl⟩

theorem wit_SeekDoesNotDrainTheChannel :
    let s := { st .active .zero .zero [1, 3, 2, 0] with script := [hostMove (.seek 3 5 0), hostMove .read] }
    s.life = .active ∧ s.drainBusy = false ∧ s.cycle = [] ∧ s.script = [hostMove (.seek 3 5 0), hostMove .read] :=
  ⟨rfl, rfl, rfl, rfl⟩

theorem wit_HostSampleGoesAheadOfBufferedOnes :
    let s := { st .active .zero .zero [1, 3] with script := [hostMove (.consume 2), hostMove .read] }
    s.life = .active ∧ s.drainBusy = false ∧ s.cycle = [] ∧ s.script = [hostMove (.consume 2), hostMove .read] := by decide

theorem wit_NopOnlyResponds : active0.life ≠ .faulted ∧ State.reset.life ≠ .faulted := by decide

theorem wit_ConfigureConstructsADecoder :
    (answering true).life = .unconfigured ∧ validateAnswer (answering true).chan ⟨4, 5, 6, 7⟩ = true ∧
      { answering true with life := .released }.life = .released := ⟨rfl, rfl, rfl⟩

theorem wit_RejectedConfigureChangesNoRegister :
    (answering false).life = .unconfigured ∧ validateAnswer (answering false).chan ⟨0, 1, 2, 4⟩ = false ∧
      validateAnswer State.reset.chan ⟨0, 0, 0, 0⟩ = false := ⟨rfl, rfl, by decide⟩

/-- Lines that are four times the same are no run, at any width. -/
theorem wit_ReferenceChannelWantsConsecutiveLines :
    Channel.initial.validate = .reference ∧ (0 : LineId).toNat ≠ (0 : LineId).toNat + 1 := by decide

theorem wit_ReleaseTearsTheDecoderDown :
    let s := { active0 with chan := { Channel.initial with fifo := [1], release := .fixed true } }
    s.life = .active ∧ releaseAnswer s.chan = true := by decide

theorem wit_RepeatedReleaseDoesNothing : (st .released .zero .zero [1]).life = .released := by decide

theorem wit_FailedReleaseFaults :
    let s := { active0 with chan := { Channel.initial with release := .fixed false } }
    s.life = .active ∧ releaseAnswer s.chan = false := by decide

theorem wit_FaultIsPrecise :
    State.reset.life ≠ .faulted ∧ ∃ t, exec .read State.reset = .next t ∧ t.life = .faulted ∧ t.faultCause ≠ 6 :=
  ⟨by decide, _, rfl, rfl, by decide⟩

theorem wit_OnlyResetLeavesFaulted :
    let s := nextIs (st .faulted .zero .zero []) (hostMove .nop)
    s.life = .faulted ∧ (∃ t, step s = .next t) ∧ (∀ s', nextMove s ≠ some (.reset, s')) :=
  ⟨rfl, ⟨_, rfl⟩, fun s' => by simp [nextMove, nextIs, hostMove]⟩

theorem wit_FaultsOnlyInAcceptingSteps :
    (∃ t, step (nextIs State.reset (hostMove .read)) = .next t ∧ t.life = .faulted) ∧
    (∃ t, step draining = .next t ∧ t.life ≠ .faulted) ∧ (∀ s', nextMove draining ≠ some (.reset, s')) :=
  ⟨⟨_, rfl, rfl⟩, ⟨_, rfl, by decide⟩, fun s' => by simp [nextMove, draining, st, State.reset]⟩

theorem wit_HardwareResetSetsEveryRegister : (nextIs draining .reset).script = .reset :: [] := by decide

theorem wit_PortsCarryTheCodes :
    { active0 with rsp := some ⟨.ok, 1, 2⟩ }.rsp = some ⟨.ok, 1, 2⟩ := rfl

/-- A state in mid-READ, and a faulted one, meet the invariant. -/
theorem wit_EveryStepKeepsTheInvariant :
    Inv draining ∧ Inv { st .faulted .zero .zero [1] with faultCause := 4, faultCmd := 0x0103 } ∧
      ∃ t, step draining = .next t := by
  refine ⟨⟨by decide, ?_, ?_, by decide, by decide⟩, ⟨by decide, ?_, ?_, by decide, by decide⟩, _, rfl⟩
  · unfold FaultRecord; decide
  · exact trivial
  · unfold FaultRecord; decide
  · exact trivial

theorem wit_OtherAgentsTouchOnlyTheChannel :
    (nextIs active0 (.sample 9)).script = .sample 9 :: [] ∧
      (nextIs active0 (.sample 9)).chan.fifo.length < (nextIs active0 (.sample 9)).chan.depth ∧
      (nextIs active0 (.platform Channel.initial)).script = .platform Channel.initial :: [] := by decide

theorem wit_OnlyTheseStepsWriteEncoderRegisters :
    let s := nextIs active0 (hostMove (.consume 1))
    s.drainBusy = false ∧ (∀ s', nextMove s ≠ some (.reset, s')) ∧
      ∃ t, step s = .next t ∧ t.enc0.prev ≠ s.enc0.prev ∧ t.enc0.acc ≠ s.enc0.acc :=
  ⟨rfl, fun s' => by simp [nextMove, nextIs, hostMove], _, rfl, by decide, fun e =>
    Acc.ofNat_ne (n := 1) (m := 0) (by decide) (by decide) (by decide) ((BitVec.zero_add _).symm.trans e)⟩

theorem wit_OnlyThreeCommandsRunAfterRelease : (st .released .zero .zero []).life = .released := by decide

/-- An accumulator of 4 stands at a position other than 0, at every width. -/
theorem four_at_position_one : position (4 : Acc) ≠ 0 := by
  intro e
  have h := congrArg (fun p : Acc => p.toNat) e
  have h4 : (4 : Acc).toNat = 4 := Acc.toNat_ofNat_of_lt (n := 4) (by decide)
  have hm : (4 : Acc).msb = false := by
    have hw : 2 ^ 4 ≤ 2 ^ Config.accWidth := Nat.pow_le_pow_right (by decide) Config.four_le_accWidth
    rw [BitVec.msb_eq_false_iff_two_mul_lt, h4]; omega
  simp only [position, BitVec.toNat_sshiftRight_of_msb_false hm, h4] at h
  simp at h

theorem wit_PositionsOnlyInReadResponses :
    ∃ t r, step { st .active ⟨0, false, 4⟩ .zero [] with drainBusy := true } = .next t ∧ t.rsp = some r ∧ r.pos0 ≠ 0 :=
  ⟨_, _, rfl, rfl, four_at_position_one⟩

theorem wit_BootSequenceAbsorbsTheStartup :
    let s := { st .faulted .zero .zero [] with
      chan := { Channel.initial with fifo := [3] ++ [2], validate := .fixed true }
      script := [.reset, hostMove (.configure 4 5 6 7), hostMove .read, hostMove (.seek 3 0 0)] }
    validateAnswer s.chan ⟨4, 5, 6, 7⟩ = true ∧ s.chan.fifo = [3] ++ [2] ∧ s.cycle = [] ∧
      s.script = [.reset, hostMove (.configure 4 5 6 7), hostMove .read, hostMove (.seek 3 0 0)] :=
  ⟨rfl, rfl, rfl, rfl⟩

theorem wit_AssemblerLinesGiveTheirCommands : bitsField Config.lineIdWidth ['0'] = some 0 :=
  if_pos (Nat.two_pow_pos _)

theorem wit_ParametersKeepTheirBounds : ∃ t, step draining = .next t := ⟨_, rfl⟩

/-! ## The assembler's numbers at the reference widths -/

/-- A seek value has a pattern of 4 bits from -8 to 15; a line identifier of 8 bits is at most 255. -/
theorem test_assembler_ranges :
    accField 4 "-8".toList = some 8 ∧ accField 4 "-9".toList = none ∧ accField 4 "15".toList = some 15 ∧
      accField 4 "16".toList = none ∧ bitsField 8 "255".toList = some 255 ∧ bitsField 8 "256".toList = none := by decide

end Sys2Proof.Tests
end

section
/-! The reported position, and what one step can do to the channel: statements O27 and O56. -/

namespace Sys2Proof.Machine

/-! ## The reported position (R140) -/

/-- The arithmetic shift of R140 is a division by 4 that rounds down. -/
theorem position_toInt {W : Nat} (acc : BitVec W) : (position acc).toInt = acc.toInt / 4 := by
  simp [position, BitVec.toInt_sshiftRight, Int.shiftRight_eq_div_pow]

/-- Each position stands for four consecutive accumulator values. -/
theorem position_toInt_eq_iff {W : Nat} (acc : BitVec W) (p : Int) :
    (position acc).toInt = p ↔ 4 * p ≤ acc.toInt ∧ acc.toInt ≤ 4 * p + 3 := by
  rw [position_toInt]
  omega

/-- A position fits the two's complement range of `W - 2` bits (R7, R140). -/
theorem position_toInt_range {W : Nat} (hW : 4 ≤ W) (acc : BitVec W) :
    -(2 ^ (W - 3) : Int) ≤ (position acc).toInt ∧ (position acc).toInt ≤ 2 ^ (W - 3) - 1 := by
  have hlo : -(2 ^ (W - 1) : Int) ≤ acc.toInt := BitVec.le_toInt acc
  have hhi : acc.toInt < 2 ^ (W - 1) := BitVec.toInt_lt
  have hpow : (2 ^ (W - 1) : Int) = 2 ^ (W - 3) * 4 := by
    rw [show W - 1 = W - 3 + 2 by omega, pow_add]
    rfl
  rw [position_toInt]
  omega

/-! ## What one step can do to the channel -/

/-- One step's effect on the channel: none, one of R190's primitives, or the producer's or the platform's move. -/
inductive ChannelStep (ch : Channel) : Channel → Prop where
  | kept : ChannelStep ch ch
  | popped {w : Sample} {rest : List Sample} (h : ch.fifo = w :: rest) : ChannelStep ch { ch with fifo := rest }
  | validated (l : Lines) : ChannelStep ch (chanValidate ch l).2
  | released : ChannelStep ch (chanRelease ch).2
  | appended (w : Sample) : ChannelStep ch (chanAppend w ch)
  | replaced (new : Channel) : ChannelStep ch (chanReplaced new ch)

/-- The depth is a parameter (R5): nothing that is done to the channel changes it. -/
theorem ChannelStep.depth_eq {ch ch' : Channel} (h : ChannelStep ch ch') : ch'.depth = ch.depth := by
  cases h with
  | kept => rfl
  | popped => rfl
  | validated l => exact (chanValidate_fifo ch l).2
  | released => exact (chanRelease_bounded ch).2
  | appended w => exact (chanAppend_bounded w ch).2
  | replaced new => exact chanReplaced_depth new ch

/-- Past its checks CONFIGURE asks the channel to validate, and does nothing else to it (R161). -/
@[simp] theorem construct_chan (l : Lines) (s : State) : (construct l s).chan = (chanValidate s.chan l).2 := by
  unfold construct
  split <;> simp [*]

/-- The teardown asks the channel to release, and does nothing else to it (R164, R166). -/
@[simp] theorem tearDown_chan (s : State) : (tearDown s).chan = (chanRelease s.chan).2 := by
  unfold tearDown
  split <;> simp [*]

/-- RELEASE past its checks leaves the channel alone when repeated, and releases it otherwise (R164, R165). -/
theorem releaseOrKeep_channelStep (s : State) : ChannelStep s.chan (releaseOrKeep s).chan := by
  rcases releaseOrKeep_cases s with ⟨-, h⟩ | ⟨-, h⟩ <;> rw [h]
  · exact .kept
  · exact tearDown_chan s ▸ .released

/-- A drain step pops the oldest sample or leaves the channel alone (R142, R143). -/
theorem drainStep_channelStep (s : State) : ChannelStep s.chan (drainStep s).chan := by
  rcases drainStep_cases s with ⟨w, rest, hf, h⟩ | ⟨-, h⟩ <;> rw [h]
  · exact .popped hf
  · exact .kept

theorem blockTurn_channelStep (s : State) : ChannelStep s.chan (blockTurn s).chan := by
  rcases blockTurn_cases s with ⟨-, h⟩ | ⟨-, h⟩ <;> rw [h]
  · exact drainStep_channelStep s
  · exact .kept

/-- A command that its checks turn away leaves the channel alone (R180, R185): only the run counts. -/
theorem checked_channelStep {check : Life → Option Cause} {h : Header} {run : State → State} {s : State}
    (hrun : ChannelStep s.chan (run s).chan) : ChannelStep s.chan (checked check h run s).chan := by
  rcases checked_cases check h run s with ⟨-, e⟩ | ⟨cause, -, -, e⟩ | ⟨-, -, e⟩ <;> rw [e]
  · exact .kept
  · exact .kept
  · exact hrun

/-- Every instruction has a next state, and of the six only CONFIGURE and RELEASE touch the channel when accepted. -/
theorem exec_channelStep (i : Instr) (s : State) : ∃ t, exec i s = .next t ∧ ChannelStep s.chan t.chan := by
  cases i with
  | nop => exact ⟨_, rfl, checked_channelStep .kept⟩
  | consume smp => exact ⟨_, rfl, checked_channelStep .kept⟩
  | read => exact ⟨_, rfl, checked_channelStep .kept⟩
  | seek sel v0 v1 => exact ⟨_, rfl, checked_channelStep .kept⟩
  | configure l0 l1 l2 l3 => exact ⟨_, rfl, checked_channelStep (construct_chan _ s ▸ .validated _)⟩
  | release => exact ⟨_, rfl, checked_channelStep (releaseOrKeep_channelStep s)⟩

theorem acceptCommand_channelStep (c : Command) (s : State) :
    ∃ t, acceptCommand c s = .next t ∧ ChannelStep s.chan t.chan := by
  rcases acceptCommand_cases c s with ⟨i, -, h⟩ | ⟨-, h⟩ | ⟨-, h⟩ <;> rw [h]
  · exact exec_channelStep i s
  · exact ⟨_, rfl, checked_channelStep .kept⟩
  · exact ⟨_, rfl, checked_channelStep .kept⟩

theorem nextMove_chan {s s' : State} {e : Event} (h : nextMove s = some (e, s')) : s'.chan = s.chan := by
  obtain ⟨rest, rfl⟩ := nextMove_frame h
  rfl

/-- Every step of every agent has a next state and does one thing at most to the channel (R20, R190). -/
theorem step_channelStep (s : State) : ∃ t, step s = .next t ∧ ChannelStep s.chan t.chan := by
  rcases step_cases s with ⟨-, h⟩ | ⟨c, s', -, -, h⟩ | ⟨c, s', hm, -, h⟩ | ⟨s', hm, h⟩ | ⟨w, s', hm, h⟩ |
    ⟨s', hm, h⟩ | ⟨ch, s', hm, h⟩ <;> rw [h]
  · exact ⟨_, rfl, blockTurn_channelStep s⟩
  · exact ⟨_, rfl, drainStep_channelStep s⟩
  all_goals rw [← nextMove_chan hm]
  · exact acceptCommand_channelStep c s'
  · exact ⟨_, rfl, blockTurn_channelStep s'⟩
  · exact ⟨_, rfl, .appended w⟩
  · exact ⟨_, rfl, .kept⟩
  · exact ⟨_, rfl, .replaced ch⟩

/-- The same, of a step whose next state is at hand. -/
theorem channelStep_of_step {s t : State} (h : step s = .next t) : ChannelStep s.chan t.chan := by
  obtain ⟨t', h', hch⟩ := step_channelStep s
  cases h.symm.trans h'
  exact hch

/-! ## The statements -/

/-- Settles O27: the shift is a floor division, and a floor of a quarter is taken on four values. -/
theorem positionIsTheFloorOfAQuarter : Obligations.PositionIsTheFloorOfAQuarter := by
  intro W hW acc
  refine ⟨?_, position_toInt_range hW acc, position_toInt_eq_iff acc⟩
  rw [position_toInt, Int.fdiv_eq_ediv_of_nonneg _ (by decide)]

/-- Settles O56: both bounds hold by construction, and no effect on the channel reaches its depth. -/
theorem parametersKeepTheirBounds : Obligations.ParametersKeepTheirBounds :=
  ⟨Config.four_le_accWidth, Channel.one_le_depth, fun _ _ h => (channelStep_of_step h).depth_eq⟩

end Sys2Proof.Machine
end

section
/-! The decoder reads the header alone: the header an instruction came from, and what a fault record's header decodes to. -/

namespace Sys2Proof

/-- A header is the bits a row fixes and the bits its mask leaves out, put together again (R73). -/
theorem header_eq_of_masked {h mask pattern field : Header} (hp : h &&& mask = pattern) (hf : field = h &&& ~~~mask) :
    pattern ||| field = h := by
  rw [← hp, hf, ← BitVec.and_or_distrib_left, BitVec.or_not_self, BitVec.and_allOnes]

/-- Encoding a decoded instruction gives back the header it came from (R73, R80). -/
theorem encodeHeader_of_decode {c : Command} {i : Instr} (hd : decode c = .instr i) : encodeHeader i = c.header := by
  rcases decode_cases c with ⟨-, h⟩ | ⟨-, r, hr, hs, h⟩ | ⟨-, -, h⟩ <;> rw [hd] at h <;> cases h
  simp only [opcodeRows, List.mem_cons, List.not_mem_nil, or_false] at hr
  rcases hr with rfl | rfl | rfl | rfl | rfl | rfl <;>
    simp only [OpcodeRow.selects, beq_iff_eq, assembleOperands, encodeHeader] at hs ⊢
  case inr.inl =>
    refine header_eq_of_masked hs ?_
    ext k hk
    interval_cases k <;> simp [smpField]
  case inr.inr.inr.inl =>
    refine header_eq_of_masked hs ?_
    ext k hk
    interval_cases k <;> simp [selField]
  all_goals exact hs.symm.trans BitVec.and_allOnes

/-- The same header with every port at 0 decodes to the same operation, or is rejected the same way (R75). -/
theorem decode_ofHeader_cases (c : Command) :
    (decode c = .illegalOpcode ∧ decode (.ofHeader c.header) = .illegalOpcode) ∨
    (∃ op, decode c = .instr (assembleOperands op c) ∧
      decode (.ofHeader c.header) = .instr (assembleOperands op (.ofHeader c.header))) ∨
    (decode c = .reservedNonzero ∧ decode (.ofHeader c.header) = .reservedNonzero) := by
  unfold decode
  rw [show (Command.ofHeader c.header).header = c.header from rfl]
  split
  · exact .inl ⟨rfl, rfl⟩
  · split
    · exact .inr (.inl ⟨_, rfl, rfl⟩)
    · exact .inr (.inr ⟨rfl, rfl⟩)

end Sys2Proof
end

section
/-! What one step can be: an instruction as its lifecycle check and its run, and the inversion lemmas of `exec` and `step`
that the statements about registers start from. -/

namespace Sys2Proof.Machine

/-! ## An instruction is a check and a run -/

/-- The lifecycle check of an instruction (R167). -/
def lifecycleCheck : Instr → Life → Option Cause
  | .nop => needsNothing
  | .consume _ => needsDecoder
  | .read => needsDecoder
  | .seek _ _ _ => needsDecoder
  | .configure _ _ _ _ => needsNoDecoder
  | .release => needsConstruction

/-- What an instruction does once its checks have passed. -/
def runInstr : Instr → State → State
  | .nop => respondOk
  | .consume smp => fun s => respondOk (applySample smp s)
  | .read => startDrain
  | .seek sel v0 v1 => fun s => respondOk (seekBoth sel v0 v1 s)
  | .configure l0 l1 l2 l3 => construct ⟨l0, l1, l2, l3⟩
  | .release => releaseOrKeep

/-- Every arm of `exec` has one shape: the checks of R184, then the run. -/
theorem exec_eq_checked (i : Instr) (s : State) :
    exec i s = .next (checked (lifecycleCheck i) (encodeHeader i) (runInstr i) s) := by
  cases i <;> rfl

/-- Executing an instruction is turned away in FAULTED, raises its lifecycle fault, or runs (R184). -/
theorem exec_cases {i : Instr} {s t : State} (h : exec i s = .next t) :
    (s.life = .faulted ∧ t = respondFaulted s) ∨
    (∃ cause, s.life ≠ .faulted ∧ lifecycleCheck i s.life = some cause ∧ t = raiseFault cause (encodeHeader i) s) ∨
    (s.life ≠ .faulted ∧ lifecycleCheck i s.life = none ∧ t = runInstr i s) := by
  rw [exec_eq_checked] at h
  cases h
  exact checked_cases _ _ _ _

/-- What a lifecycle check can raise: NOT_CONFIGURED, USE_AFTER_RELEASE or ALREADY_ACTIVE (R167). -/
theorem lifecycleCheck_code {i : Instr} {l : Life} {cause : Cause} (h : lifecycleCheck i l = some cause) :
    cause.code = 3 ∨ cause.code = 4 ∨ cause.code = 5 := by
  cases i <;> cases l <;> cases h <;> decide

/-- The outcomes of a run from a state that is not FAULTED, by what they do to the control registers and the response:
READ makes the port busy, a command completes with OK and 0 positions, a CONFIGURE is rejected, a RELEASE fails. -/
inductive RunOutcome (s : State) : Instr → State → Prop where
  | busy (hl : s.life = .active) : RunOutcome s .read (startDrain s)
  | completed {i : Instr} (e0 e1 : Encoder Config.accWidth) (l : Life) (ch : Channel) (hl : l ≠ .faulted) :
      RunOutcome s i (respondOk { s with enc0 := e0, enc1 := e1, life := l, chan := ch })
  | rejected {i : Instr} (ch : Channel) (hl : s.life = .unconfigured ∨ s.life = .released) :
      RunOutcome s i (respond .configError 0 0 { s with chan := ch })
  | teardownFailed (ch : Channel) :
      RunOutcome s .release (raiseFault .teardownFailure (encodeHeader .release) { s with chan := ch })

/-- READ runs only on a live decoder (R167). -/
theorem active_of_needsDecoder {l : Life} (hl : l ≠ .faulted) (h : needsDecoder l = none) : l = .active := by
  cases l <;> simp_all [needsDecoder]

/-- CONFIGURE runs only where there is no decoder (R167). -/
theorem unconfigured_or_released_of_needsNoDecoder {l : Life} (hl : l ≠ .faulted)
    (h : needsNoDecoder l = none) : l = .unconfigured ∨ l = .released := by
  cases l <;> simp_all [needsNoDecoder]

theorem construct_outcome (l0 l1 l2 l3 : LineId) {s : State} (hl : s.life = .unconfigured ∨ s.life = .released) :
    RunOutcome s (.configure l0 l1 l2 l3) (construct ⟨l0, l1, l2, l3⟩ s) := by
  rcases construct_cases ⟨l0, l1, l2, l3⟩ s with ⟨-, h⟩ | ⟨-, h⟩ <;> rw [h]
  · exact .completed _ _ .active _ (by decide)
  · exact .rejected _ hl

theorem releaseOrKeep_outcome {s : State} (hl : s.life ≠ .faulted) : RunOutcome s .release (releaseOrKeep s) := by
  rcases releaseOrKeep_cases s with ⟨-, h⟩ | ⟨-, h⟩ <;> rw [h]
  · exact .completed _ _ _ _ hl
  · rcases tearDown_cases s with ⟨-, h'⟩ | ⟨-, h'⟩ <;> rw [h']
    · exact .completed _ _ .released _ (by decide)
    · exact .teardownFailed _

/-- A run whose checks have passed has one of these outcomes. -/
theorem runInstr_outcome {i : Instr} (s : State) (hl : s.life ≠ .faulted) (hc : lifecycleCheck i s.life = none) :
    RunOutcome s i (runInstr i s) := by
  cases i with
  | nop => exact .completed _ _ _ _ hl
  | consume smp => exact .completed _ _ _ _ hl
  | read => exact .busy (active_of_needsDecoder hl hc)
  | seek sel v0 v1 => exact .completed _ _ _ _ hl
  | configure l0 l1 l2 l3 => exact construct_outcome l0 l1 l2 l3 (unconfigured_or_released_of_needsNoDecoder hl hc)
  | release => exact releaseOrKeep_outcome hl

/-! ## The fault record of an accepted command (R181, R184) -/

/-- An illegal opcode and a reserved bit are the causes 1 and 2 of their own headers. -/
theorem recordMatches_of_illegal {c : Command} (hd : decode c = .illegalOpcode) :
    recordMatches Cause.illegalOpcode.code c.header = true := by
  rcases decode_ofHeader_cases c with ⟨-, h⟩ | ⟨op, h, -⟩ | ⟨h, -⟩
  · simp [recordMatches, h, Cause.code]
  all_goals rw [hd] at h; contradiction

theorem recordMatches_of_reserved {c : Command} (hd : decode c = .reservedNonzero) :
    recordMatches Cause.reservedNonzero.code c.header = true := by
  rcases decode_ofHeader_cases c with ⟨h, -⟩ | ⟨op, h, -⟩ | ⟨-, h⟩
  case inr.inr => simp [recordMatches, h, Cause.code]
  all_goals rw [hd] at h; contradiction

/-- The cause a lifecycle check raises is one the command's own header can raise. -/
theorem recordMatches_of_lifecycleCheck {c : Command} {i : Instr} {l : Life} {cause : Cause}
    (hd : decode c = .instr i) (hc : lifecycleCheck i l = some cause) : recordMatches cause.code c.header = true := by
  rcases decode_ofHeader_cases c with ⟨h, -⟩ | ⟨op, h, h'⟩ | ⟨h, -⟩ <;> rw [hd] at h <;> cases h
  unfold recordMatches
  rw [h']
  cases op <;> cases l <;> cases hc <;> rfl

/-- A failed teardown is a cause of RELEASE's header. -/
theorem recordMatches_teardownFailure : recordMatches Cause.teardownFailure.code (encodeHeader .release) = true := by
  decide

/-! ## One step -/

/-- Everything one step can be, with the move it took and the state that move was made on. -/
inductive StepKind (s : State) : State → Prop where
  | drained (rest : List Event) (hb : s.drainBusy = true) : StepKind s (drainStep { s with script := rest })
  | idle (rest : List Event) : StepKind s (quiet { s with script := rest })
  | turnedAway {c : Command} (rest : List Event) (hm : nextMove s = some (.command c, { s with script := rest }))
      (hb : s.drainBusy = false) (hl : s.life = .faulted) : StepKind s (respondFaulted { s with script := rest })
  | raised {c : Command} {cause : Cause} (rest : List Event)
      (hm : nextMove s = some (.command c, { s with script := rest })) (hb : s.drainBusy = false)
      (hl : s.life ≠ .faulted) (hr : recordMatches cause.code c.header = true) :
      StepKind s (raiseFault cause c.header { s with script := rest })
  | ran {c : Command} {i : Instr} (rest : List Event) (hm : nextMove s = some (.command c, { s with script := rest }))
      (hb : s.drainBusy = false) (hl : s.life ≠ .faulted) (hd : decode c = .instr i)
      (hc : lifecycleCheck i s.life = none) : StepKind s (runInstr i { s with script := rest })
  | produced (w : Sample) (rest : List Event) : StepKind s (producerStep w { s with script := rest })
  | reset (rest : List Event) (hm : nextMove s = some (.reset, { s with script := rest })) :
      StepKind s (hwReset { s with script := rest })
  | replaced (ch : Channel) (rest : List Event) : StepKind s (platformStep ch { s with script := rest })

theorem blockTurn_kind (s : State) (rest : List Event) : StepKind s (blockTurn { s with script := rest }) := by
  rcases blockTurn_cases { s with script := rest } with ⟨hb, h⟩ | ⟨-, h⟩ <;> rw [h]
  · exact .drained rest hb
  · exact .idle rest

/-- A header that decodes to no instruction is turned away or raises its own fault (R184, R185). -/
theorem rejectHeader_kind {s : State} {c : Command} {cause : Cause} {rest : List Event}
    (hm : nextMove s = some (.command c, { s with script := rest })) (hb : s.drainBusy = false)
    (hr : recordMatches cause.code c.header = true) :
    StepKind s (rejectHeader cause c.header { s with script := rest }) := by
  rcases rejectHeader_cases cause c.header { s with script := rest } with ⟨hl, h⟩ | ⟨hl, h⟩ <;> rw [h]
  · exact .turnedAway rest hm hb hl
  · exact .raised rest hm hb hl hr

theorem acceptCommand_kind {s t : State} {c : Command} {rest : List Event}
    (hm : nextMove s = some (.command c, { s with script := rest })) (hb : s.drainBusy = false)
    (h : acceptCommand c { s with script := rest } = .next t) : StepKind s t := by
  rcases acceptCommand_cases c { s with script := rest } with ⟨i, hd, ha⟩ | ⟨hd, ha⟩ | ⟨hd, ha⟩ <;> rw [ha] at h
  · rcases exec_cases h with ⟨hl, rfl⟩ | ⟨cause, hl, hc, rfl⟩ | ⟨hl, hc, rfl⟩
    · exact .turnedAway rest hm hb hl
    · rw [encodeHeader_of_decode hd]
      exact .raised rest hm hb hl (recordMatches_of_lifecycleCheck hd hc)
    · exact .ran rest hm hb hl hd hc
  · cases h
    exact rejectHeader_kind hm hb (recordMatches_of_illegal hd)
  · cases h
    exact rejectHeader_kind hm hb (recordMatches_of_reserved hd)

/-- Every step is of one of these kinds (R20). -/
theorem step_kind {s t : State} (h : step s = .next t) : StepKind s t := by
  rcases step_cases s with ⟨-, hs⟩ | ⟨c, s', -, hb, hs⟩ | ⟨c, s', hm, hb, hs⟩ | ⟨s', hm, hs⟩ | ⟨w, s', hm, hs⟩ |
    ⟨s', hm, hs⟩ | ⟨ch, s', hm, hs⟩ <;> rw [hs] at h
  · cases h
    exact blockTurn_kind s s.script
  · cases h
    exact .drained s.script hb
  all_goals obtain ⟨rest, rfl⟩ := nextMove_frame hm
  · exact acceptCommand_kind hm hb h
  all_goals cases h
  · exact blockTurn_kind s rest
  · exact .produced w rest
  · exact .reset rest hm
  · exact .replaced ch rest

/-! ## A drain step leaves the control registers and the moves alone (R142, R143) -/

/-- A drain step writes the encoders, the port, the response and the channel only. -/
theorem drainStep_frame (s : State) : drainStep s = { s with
    enc0 := (drainStep s).enc0, enc1 := (drainStep s).enc1, drainBusy := (drainStep s).drainBusy,
    rsp := (drainStep s).rsp, chan := (drainStep s).chan } := by
  rcases drainStep_cases s with ⟨w, rest, -, h⟩ | ⟨-, h⟩ <;> rw [h] <;> rfl

@[simp] theorem drainStep_life (s : State) : (drainStep s).life = s.life := by
  rw [drainStep_frame s]

@[simp] theorem drainStep_faultCause (s : State) : (drainStep s).faultCause = s.faultCause := by
  rw [drainStep_frame s]

@[simp] theorem drainStep_faultCmd (s : State) : (drainStep s).faultCmd = s.faultCmd := by
  rw [drainStep_frame s]

@[simp] theorem drainStep_script (s : State) : (drainStep s).script = s.script := by
  rw [drainStep_frame s]

@[simp] theorem drainStep_cycle (s : State) : (drainStep s).cycle = s.cycle := by
  rw [drainStep_frame s]

end Sys2Proof.Machine
end

section
/-! The invariant, component by component: O46 and O47. -/

namespace Sys2Proof.Machine

/-! ## What a run leaves in the control registers -/

/-- Only READ makes the port busy, and it then has not responded (R141). -/
theorem RunOutcome.busy_after {s t : State} {i : Instr} (h : RunOutcome s i t) (hb : s.drainBusy = false)
    (ht : t.drainBusy = true) : t.life = .active ∧ t.rsp = none := by
  cases h with
  | busy hl => exact ⟨hl, rfl⟩
  | completed | rejected | teardownFailed => exact absurd (hb.symm.trans ht) (by decide)

/-- A run that does not end in FAULTED leaves the fault registers alone; only a failed teardown ends there (R166, R180). -/
theorem RunOutcome.record {s t : State} {i : Instr} (h : RunOutcome s i t) (hl : s.life ≠ .faulted) :
    (t.life ≠ .faulted ∧ t.faultCause = s.faultCause ∧ t.faultCmd = s.faultCmd) ∨
    (i = .release ∧ ∃ ch, t = raiseFault .teardownFailure (encodeHeader .release) { s with chan := ch }) := by
  cases h with
  | busy | rejected => exact .inl ⟨hl, rfl, rfl⟩
  | completed e0 e1 l ch hl' => exact .inl ⟨hl', rfl, rfl⟩
  | teardownFailed ch => exact .inr ⟨rfl, ch, rfl⟩

/-! ## The fault record (R29, R30, R180) -/

theorem faultRecord_of_ne {s : State} (hl : s.life ≠ .faulted) :
    FaultRecord s ↔ s.faultCause = 0 ∧ s.faultCmd = 0 := by
  simp [FaultRecord, hl]

theorem faultRecord_of_faulted {s : State} (hl : s.life = .faulted) :
    FaultRecord s ↔ recordMatches s.faultCause s.faultCmd = true := by
  simp [FaultRecord, hl]

/-- The fault record depends on `life` and the two fault registers alone. -/
theorem FaultRecord.congr {s t : State} (h : FaultRecord s) (hl : t.life = s.life) (hc : t.faultCause = s.faultCause)
    (hm : t.faultCmd = s.faultCmd) : FaultRecord t := by
  unfold FaultRecord
  rw [hl, hc, hm]
  exact h

/-- Every step keeps the fault record true. -/
theorem StepKind.faultRecord {s t : State} (h : StepKind s t) (hs : FaultRecord s) : FaultRecord t := by
  cases h with
  | drained rest hb =>
    exact hs.congr (drainStep_life _) (drainStep_faultCause _) (drainStep_faultCmd _)
  | idle | turnedAway | produced | replaced => exact hs.congr rfl rfl rfl
  | raised rest hm hb hl hr => exact (faultRecord_of_faulted rfl).mpr hr
  | reset rest hm => exact (faultRecord_of_ne (by simp)).mpr ⟨rfl, rfl⟩
  | @ran c i rest hm hb hl hd hc =>
    rcases (runInstr_outcome { s with script := rest } hl hc).record hl with ⟨hl', hcause, hcmd⟩ | ⟨rfl, ch, h⟩
    · rw [faultRecord_of_ne hl', hcause, hcmd]
      exact (faultRecord_of_ne hl).mp hs
    · rw [h]
      exact (faultRecord_of_faulted rfl).mpr recordMatches_teardownFailure

/-! ## The port (R31, R141) -/

/-- A drain step that leaves the port busy has not responded; one that frees it has. -/
theorem drainStep_busy_or_done (s : State) :
    ((drainStep s).drainBusy = s.drainBusy ∧ (drainStep s).rsp = none) ∨
    ((drainStep s).drainBusy = false ∧
      (drainStep s).rsp = some ⟨.ok, position s.enc0.acc, position s.enc1.acc⟩) := by
  rcases drainStep_cases s with ⟨w, rest, -, h⟩ | ⟨-, h⟩ <;> rw [h]
  · exact .inl ⟨rfl, rfl⟩
  · exact .inr ⟨rfl, rfl⟩

/-- After any step, a busy port means a live decoder, when it did so before. -/
theorem StepKind.busyActive {s t : State} (h : StepKind s t) (hs : s.drainBusy = true → s.life = .active)
    (ht : t.drainBusy = true) : t.life = .active := by
  cases h with
  | drained rest hb => exact (drainStep_life _).trans (hs hb)
  | idle | turnedAway | produced | replaced => exact hs ht
  | raised rest hm hb => exact absurd (hb.symm.trans ht) (by decide)
  | reset => cases ht
  | @ran c i rest hm hb hl hd hc =>
    exact ((runInstr_outcome { s with script := rest } hl hc).busy_after hb ht).1

/-- A step that leaves the port busy responds nothing, whatever the state before (R76, R143). -/
theorem StepKind.busySilent {s t : State} (h : StepKind s t) (ht : t.drainBusy = true) : t.rsp = none := by
  cases h with
  | drained rest hb =>
    rcases drainStep_busy_or_done { s with script := rest } with ⟨-, h⟩ | ⟨h, -⟩
    · exact h
    · rw [h] at ht
      cases ht
  | idle | produced | reset | replaced => rfl
  | turnedAway rest hm hb | raised rest hm hb => exact absurd (hb.symm.trans ht) (by decide)
  | @ran c i rest hm hb hl hd hc =>
    exact ((runInstr_outcome { s with script := rest } hl hc).busy_after hb ht).2

/-! ## The response (R76, R182, R183) -/

theorem responseFits_of_none {s : State} (h : s.rsp = none) : ResponseFits s := by
  simp [ResponseFits, h]

theorem responseFits_of_ok {s : State} {p0 p1 : Acc} (h : s.rsp = some ⟨.ok, p0, p1⟩) (hl : s.life ≠ .faulted) :
    ResponseFits s := by
  simp [ResponseFits, h, hl]

theorem responseFits_of_configError {s : State} (h : s.rsp = some ⟨.configError, 0, 0⟩)
    (hl : s.life = .unconfigured ∨ s.life = .released) : ResponseFits s := by
  rcases hl with hl | hl <;> simp [ResponseFits, h, hl]

theorem responseFits_of_fault {s : State} (h : s.rsp = some ⟨.fault, 0, 0⟩) (hl : s.life = .faulted) :
    ResponseFits s := by
  simp [ResponseFits, h, hl]

theorem RunOutcome.responseFits {s t : State} {i : Instr} (h : RunOutcome s i t) : ResponseFits t := by
  cases h with
  | busy => exact responseFits_of_none rfl
  | completed e0 e1 l ch hl => exact responseFits_of_ok rfl hl
  | rejected ch hl => exact responseFits_of_configError rfl hl
  | teardownFailed => exact responseFits_of_fault rfl rfl

/-- The response of every step fits the state it leaves, when a READ is in progress only on a live decoder. -/
theorem StepKind.responseFits {s t : State} (h : StepKind s t) (hs : s.drainBusy = true → s.life = .active) :
    ResponseFits t := by
  cases h with
  | drained rest hb =>
    rcases drainStep_busy_or_done { s with script := rest } with ⟨-, h⟩ | ⟨-, h⟩
    · exact responseFits_of_none h
    · refine responseFits_of_ok h ?_
      rw [drainStep_life, hs hb]
      decide
  | idle | produced | reset | replaced => exact responseFits_of_none rfl
  | turnedAway rest hm hb hl => exact responseFits_of_fault rfl hl
  | raised => exact responseFits_of_fault rfl rfl
  | ran rest hm hb hl hd hc => exact (runInstr_outcome { s with script := rest } hl hc).responseFits

/-! ## The FIFO (R34, R190) -/

/-- Nothing that is done to a channel makes its FIFO exceed its depth. -/
theorem ChannelStep.bounded {ch ch' : Channel} (h : ChannelStep ch ch') (hb : ch.fifo.length ≤ ch.depth) :
    ch'.fifo.length ≤ ch'.depth := by
  rw [h.depth_eq]
  cases h with
  | kept => exact hb
  | popped hf =>
    rw [hf] at hb
    exact (Nat.le_succ _).trans hb
  | validated l => exact (congrArg List.length (chanValidate_fifo ch l).1).trans_le hb
  | released => exact (chanRelease_bounded ch).1
  | appended w => exact (chanAppend_bounded w ch).1
  | replaced new => exact (chanReplaced_bounded new ch).1

/-! ## The statements -/

/-- Settles O46: at reset the port is free, nothing has responded, and record and FIFO are empty. -/
theorem resetMeetsTheInvariant : Obligations.ResetMeetsTheInvariant where
  busyActive := nofun
  faultRecord := (faultRecord_of_ne (by decide)).mpr ⟨rfl, rfl⟩
  responseFits := responseFits_of_none rfl
  busySilent := nofun
  fifoBounded := Nat.zero_le _

/-- Settles O47: four components by the kind of the step, the FIFO by what a step can do to the channel. -/
theorem everyStepKeepsTheInvariant : Obligations.EveryStepKeepsTheInvariant := fun s t hs h =>
  have hk : StepKind s t := step_kind h
  { busyActive := hk.busyActive hs.busyActive
    faultRecord := hk.faultRecord hs.faultRecord
    responseFits := hk.responseFits hs.busyActive
    busySilent := hk.busySilent
    fifoBounded := (channelStep_of_step h).bounded hs.fifoBounded }

end Sys2Proof.Machine
end

section
/-! Who writes which register, reset, the ports and the other agents: O6, O12, O40 to O45, O49 and O50. -/

namespace Sys2Proof.Machine

/-! ## The fault record over one step (R180, R185, R186) -/

/-- Over one step the fault record and whether the block is FAULTED are kept, or the step is a reset, or it takes a
command that faults and records that command's header. -/
theorem StepKind.record_cases {s t : State} (h : StepKind s t) :
    ((t.life = .faulted ↔ s.life = .faulted) ∧ t.faultCause = s.faultCause ∧ t.faultCmd = s.faultCmd) ∨
    (t.life ≠ .faulted ∧ ∃ s', nextMove s = some (.reset, s')) ∨
    (s.life ≠ .faulted ∧ t.life = .faulted ∧ s.drainBusy = false ∧
      ∃ c s', nextMove s = some (.command c, s') ∧ t.faultCmd = c.header) := by
  cases h with
  | drained => exact .inl (by simp)
  | idle | turnedAway | produced | replaced => exact .inl ⟨Iff.rfl, rfl, rfl⟩
  | reset rest hm => exact .inr (.inl ⟨by simp, _, hm⟩)
  | raised rest hm hb hl => exact .inr (.inr ⟨hl, rfl, hb, _, _, hm, rfl⟩)
  | ran rest hm hb hl hd hc =>
    rcases (runInstr_outcome { s with script := rest } hl hc).record hl with ⟨hl', hcause, hcmd⟩ | ⟨rfl, ch, h⟩
    · exact .inl ⟨iff_of_false hl' hl, hcause, hcmd⟩
    · rw [h]
      exact .inr (.inr ⟨hl, rfl, hb, _, _, hm, encodeHeader_of_decode hd⟩)

/-! ## The encoder registers (R22, R35) -/

@[simp] theorem seekEncoder_prev {W : Nat} (b : Bool) (v : BitVec W) (e : Encoder W) :
    (seekEncoder b v e).prev = e.prev := by
  cases b <;> rfl

@[simp] theorem seekEncoder_hint {W : Nat} (b : Bool) (v : BitVec W) (e : Encoder W) :
    (seekEncoder b v e).hint = e.hint := by
  cases b <;> rfl

/-- RELEASE keeps the encoder registers (R164, R165). -/
theorem releaseOrKeep_encoders (s : State) :
    (releaseOrKeep s).enc0 = s.enc0 ∧ (releaseOrKeep s).enc1 = s.enc1 := by
  rcases releaseOrKeep_cases s with ⟨-, h⟩ | ⟨-, h⟩ <;> rw [h]
  · exact ⟨rfl, rfl⟩
  · rcases tearDown_cases s with ⟨-, h'⟩ | ⟨-, h'⟩ <;> rw [h'] <;> exact ⟨rfl, rfl⟩

/-- What an instruction may write of the encoder registers, from `e0` and `e1` to `e0'` and `e1'`. -/
inductive EncoderWrite (e0 e1 e0' e1' : Encoder Config.accWidth) : Instr → Prop where
  | kept {i : Instr} (h0 : e0' = e0) (h1 : e1' = e1) : EncoderWrite e0 e1 e0' e1' i
  | sample (w : Sample) : EncoderWrite e0 e1 e0' e1' (.consume w)
  | construction (l0 l1 l2 l3 : LineId) : EncoderWrite e0 e1 e0' e1' (.configure l0 l1 l2 l3)
  | accumulators (sel : BitVec 2) (v0 v1 : Acc) (hp0 : e0'.prev = e0.prev) (hh0 : e0'.hint = e0.hint)
      (hp1 : e1'.prev = e1.prev) (hh1 : e1'.hint = e1.hint) : EncoderWrite e0 e1 e0' e1' (.seek sel v0 v1)

theorem runInstr_encoderWrite (i : Instr) (s : State) :
    EncoderWrite s.enc0 s.enc1 (runInstr i s).enc0 (runInstr i s).enc1 i := by
  cases i with
  | nop | read => exact .kept rfl rfl
  | consume w => exact .sample w
  | seek sel v0 v1 =>
    exact .accumulators sel v0 v1 (seekEncoder_prev ..) (seekEncoder_hint ..) (seekEncoder_prev ..) (seekEncoder_hint ..)
  | configure l0 l1 l2 l3 => exact .construction l0 l1 l2 l3
  | release => exact .kept (releaseOrKeep_encoders s).1 (releaseOrKeep_encoders s).2

/-- Outside a READ and a reset, a step keeps the encoder registers or runs an instruction. -/
theorem StepKind.encoders {s t : State} (h : StepKind s t) (hb : s.drainBusy = false)
    (hr : ∀ s', nextMove s ≠ some (.reset, s')) :
    (t.enc0 = s.enc0 ∧ t.enc1 = s.enc1) ∨
    ∃ c s' i, nextMove s = some (.command c, s') ∧ decode c = .instr i ∧
      EncoderWrite s.enc0 s.enc1 t.enc0 t.enc1 i := by
  cases h with
  | drained rest hb' => exact absurd (hb.symm.trans hb') (by decide)
  | idle | turnedAway | raised | produced | replaced => exact .inl ⟨rfl, rfl⟩
  | reset rest hm => exact absurd hm (hr _)
  | @ran c i rest hm hb' hl hd hc =>
    exact .inr ⟨c, _, i, hm, hd, runInstr_encoderWrite i { s with script := rest }⟩

/-! ## The ROM (R26, R105) -/

/-- The packed view leaves the low two bits free for the phase, so the `OR` only puts the fields side by side. -/
theorem romAddress_eq {W : Nat} (e : Encoder W) (curr : Phase) :
    e.romAddress curr = BitVec.ofBool e.hint ++ e.prev ++ curr := by
  obtain ⟨prev, hint, acc⟩ := e
  simp only [Encoder.romAddress, Encoder.packed]
  revert hint prev curr
  decide

/-- At each of its 32 addresses the ROM holds the table's entry. -/
theorem romEntry_concat (hint : Bool) (prev curr : Phase) :
    romEntry (BitVec.ofBool hint ++ prev ++ curr) = lut hint (transitionIndex prev curr) := by
  revert hint prev curr
  decide

/-! ## The step of the move that is next -/

theorem nextMove_of_script {s : State} {e : Event} {rest : List Event} (h : s.script = e :: rest) :
    nextMove s = some (e, { s with script := rest }) := by
  simp [nextMove, h]

theorem step_command_busy {s s' : State} {c : Command} (hm : nextMove s = some (.command c, s'))
    (hb : s.drainBusy = true) : step s = .next (drainStep s) := by
  simp [step, hm, hb]

theorem step_sample {s s' : State} {w : Sample} (hm : nextMove s = some (.sample w, s')) :
    step s = .next (producerStep w s') := by
  simp [step, hm]

theorem step_reset {s s' : State} (hm : nextMove s = some (.reset, s')) : step s = .next (hwReset s') := by
  simp [step, hm]

theorem step_platform {s s' : State} {ch : Channel} (hm : nextMove s = some (.platform ch, s')) :
    step s = .next (platformStep ch s') := by
  simp [step, hm]

/-! ## The statements -/

/-- Settles O6: the waiting command makes the step a drain step, which leaves control registers and moves alone. -/
theorem commandWaitsWhileReadDrains : Obligations.CommandWaitsWhileReadDrains := fun s _ _ hs hb =>
  ⟨drainStep s, step_command_busy (nextMove_of_script hs) hb, rfl, drainStep_script s, drainStep_cycle s,
    drainStep_life s, drainStep_faultCause s, drainStep_faultCmd s⟩

/-- Settles O12: the address is the three fields side by side, and under them the two halves of the ROM are the two
columns of the table. -/
theorem romHoldsTheTable : Obligations.RomHoldsTheTable := by
  intro W e curr
  rw [romAddress_eq]
  exact ⟨rfl, romEntry_concat e.hint e.prev curr⟩

/-- Settles O40: a fault comes from the lifecycle check, before the channel is asked, or from a failed teardown. -/
theorem faultIsPrecise : Obligations.FaultIsPrecise := by
  intro i s t hl h ht
  rcases exec_cases h with ⟨hf, -⟩ | ⟨cause, -, hc, rfl⟩ | ⟨-, hc, rfl⟩
  · exact absurd hf hl
  · refine ⟨rfl, ?_, fun _ => rfl⟩
    rcases lifecycleCheck_code hc with h | h | h <;> simp [h]
  · rcases (runInstr_outcome s hl hc).record hl with ⟨hl', -⟩ | ⟨rfl, ch, h⟩
    · exact absurd ht hl'
    · rw [h]
      exact ⟨rfl, .inr (.inr (.inr rfl)), fun hne => absurd rfl hne⟩

/-- Settles O41: of the three things a step can do to the record, a FAULTED block without reset has only the first. -/
theorem onlyResetLeavesFaulted : Obligations.OnlyResetLeavesFaulted := by
  intro s t hl h hr
  rcases (step_kind h).record_cases with ⟨hiff, hrec⟩ | ⟨-, s', hm⟩ | ⟨hl', -⟩
  · exact ⟨hiff.mpr hl, hrec⟩
  · exact absurd hm (hr s')
  · exact absurd hl hl'

/-- Settles O42: outside FAULTED, a step that ends there is the one that takes the command it records. -/
theorem faultsOnlyInAcceptingSteps : Obligations.FaultsOnlyInAcceptingSteps := by
  intro s t hl h
  rcases (step_kind h).record_cases with ⟨hiff, hrec⟩ | ⟨hl', s', hm⟩ | ⟨-, hf, hb, hcmd⟩
  · exact ⟨fun ht => absurd (hiff.mp ht) hl, fun _ _ => hrec⟩
  · exact ⟨fun ht => absurd ht hl', fun _ hr => absurd hm (hr s')⟩
  · exact ⟨fun _ => ⟨hb, hcmd⟩, fun ht => absurd hf ht⟩

/-- Settles O43: a reset that is next is the step, and it overwrites all but the channel and the moves. -/
theorem hardwareResetSetsEveryRegister : Obligations.HardwareResetSetsEveryRegister := fun _ _ hs =>
  step_reset (nextMove_of_script hs)

/-- Settles O44: read off the starting state. -/
theorem resetStateHoldsTheResetValues : Obligations.ResetStateHoldsTheResetValues :=
  ⟨rfl, rfl, rfl, rfl, rfl, rfl⟩

/-- Settles O45: by the four values of `life` and the three statuses. -/
theorem portsCarryTheCodes : Obligations.PortsCarryTheCodes := by
  constructor
  · intro s
    cases h : s.life <;> simp [State.statLife, Life.code, State.statFaultCause, State.statFaultCmd, h]
  · intro s r hr
    cases h : r.status <;> simp [State.rspStatus, Status.code, hr, h]

/-- Settles O49: both agents' steps write the channel and the response alone, and what they do to the channel fits. -/
theorem otherAgentsTouchOnlyTheChannel : Obligations.OtherAgentsTouchOnlyTheChannel := by
  constructor
  · intro s w rest hs
    obtain ⟨hfit, hdepth⟩ := chanAppend_bounded w s.chan
    exact ⟨_, step_sample (nextMove_of_script hs), hfit.trans_eq hdepth.symm, hdepth, chanAppend_room w s.chan⟩
  · intro s new rest hs
    obtain ⟨hfit, hdepth⟩ := chanReplaced_bounded new s.chan
    exact ⟨_, step_platform (nextMove_of_script hs), hfit.trans_eq hdepth.symm, hdepth⟩

/-- Settles O50: outside a READ and a reset only a run writes encoder registers, and of the six instructions CONSUME and
CONFIGURE write all of them, SEEK the accumulators. -/
theorem onlyTheseStepsWriteEncoderRegisters : Obligations.OnlyTheseStepsWriteEncoderRegisters := by
  intro s t h hb hr
  rcases (step_kind h).encoders hb hr with ⟨h0, h1⟩ | ⟨c, s', i, hm, hd, hw⟩
  · simp [h0, h1]
  · cases hw with
    | kept h0 h1 => simp [h0, h1]
    | sample w => exact ⟨fun _ => ⟨c, s', hm, .inl ⟨w, hd⟩⟩, fun _ => ⟨c, s', hm, .inl ⟨w, hd⟩⟩⟩
    | construction l0 l1 l2 l3 =>
      exact ⟨fun _ => ⟨c, s', hm, .inr ⟨l0, l1, l2, l3, hd⟩⟩, fun _ => ⟨c, s', hm, .inr (.inl ⟨l0, l1, l2, l3, hd⟩)⟩⟩
    | accumulators sel v0 v1 hp0 hh0 hp1 hh1 =>
      exact ⟨by simp [hp0, hh0, hp1, hh1], fun _ => ⟨c, s', hm, .inr (.inr ⟨sel, v0, v1, hd⟩)⟩⟩

end Sys2Proof.Machine
end

section
/-! One lane of the block, either of the two: what keeps two machines equal on it. O19. -/

namespace Sys2Proof.Machine

/-! ## A lane: encoder 1 when `b` is true, encoder 0 otherwise (R27, R120) -/

/-- The encoder of lane `b`. -/
def State.enc (s : State) (b : Bool) : Encoder Config.accWidth := if b then s.enc1 else s.enc0

/-- The bits of a sample that lane `b` takes. -/
def lanePhase (b : Bool) (w : Sample) : Phase := if b then phase1 w else phase0 w

/-- The position a response holds for lane `b`. -/
def Response.pos (r : Response) (b : Bool) : Acc := if b then r.pos1 else r.pos0

/-- Agreement of two machines on one lane: `AgreeOnEncoder0` and `AgreeOnEncoder1` as one notion. -/
structure AgreeOnLane (b : Bool) (s t : State) : Prop where
  enc : s.enc b = t.enc b
  life : s.life = t.life
  drainBusy : s.drainBusy = t.drainBusy
  fifo : s.chan.fifo.map (lanePhase b) = t.chan.fifo.map (lanePhase b)

theorem agreeOnLane_false_iff (s t : State) : AgreeOnLane false s t ↔ AgreeOnEncoder0 s t :=
  ⟨fun ⟨he, hl, hb, hf⟩ => ⟨he, hl, hb, hf⟩, fun ⟨he, hl, hb, hf⟩ => ⟨he, hl, hb, hf⟩⟩

theorem agreeOnLane_true_iff (s t : State) : AgreeOnLane true s t ↔ AgreeOnEncoder1 s t :=
  ⟨fun ⟨he, hl, hb, hf⟩ => ⟨he, hl, hb, hf⟩, fun ⟨he, hl, hb, hf⟩ => ⟨he, hl, hb, hf⟩⟩

/-! ## What the writes do to a lane -/

/-- A sample reaches a lane through that lane's two bits alone (R125). -/
theorem applySample_enc (w : Sample) (s : State) (b : Bool) :
    (applySample w s).enc b = (decodeEncoder (s.enc b) (lanePhase b w)).1 := by
  cases b <;> rfl

/-- A SEEK reaches a lane through that lane's `sel` bit and value alone (R145). -/
theorem seekBoth_enc (sel : BitVec 2) (v0 v1 : Acc) (s : State) (b : Bool) :
    (seekBoth sel v0 v1 s).enc b = seekEncoder (sel.getLsbD b.toNat) (if b then v1 else v0) (s.enc b) := by
  cases b <;> rfl

/-- The response of a completed READ holds a lane's own position (R143). -/
theorem readComplete_pos (s : State) (b : Bool) :
    (readComplete s).rsp.map (·.pos b) = some (position (s.enc b).acc) := by
  cases b <;> rfl

/-! ## Agreement is kept -/

/-- What a response or a fault entry writes is outside every lane, or the same on both sides. -/
theorem AgreeOnLane.respond {b : Bool} {s t : State} (h : AgreeOnLane b s t) (st st' : Status) (p0 p1 p0' p1' : Acc) :
    AgreeOnLane b (respond st p0 p1 s) (respond st' p0' p1' t) :=
  ⟨h.enc, h.life, h.drainBusy, h.fifo⟩

theorem AgreeOnLane.raiseFault {b : Bool} {s t : State} (h : AgreeOnLane b s t) (cause cause' : Cause)
    (hs ht : Header) :
    AgreeOnLane b (raiseFault cause hs s) (raiseFault cause' ht t) :=
  ⟨h.enc, rfl, h.drainBusy, h.fifo⟩

theorem AgreeOnLane.applySample {b : Bool} {s t : State} (h : AgreeOnLane b s t) {v w : Sample}
    (hw : lanePhase b v = lanePhase b w) : AgreeOnLane b (applySample v s) (applySample w t) where
  enc := by rw [applySample_enc, applySample_enc, h.enc, hw]
  life := h.life
  drainBusy := h.drainBusy
  fifo := h.fifo

theorem AgreeOnLane.seekBoth {b : Bool} {s t : State} (h : AgreeOnLane b s t) {sel sel' : BitVec 2}
    {v0 v1 v0' v1' : Acc} (hsel : sel.getLsbD b.toNat = sel'.getLsbD b.toNat)
    (hv : (if b then v1 else v0) = (if b then v1' else v0')) : AgreeOnLane b (seekBoth sel v0 v1 s) (seekBoth sel' v0' v1' t) where
  enc := by rw [seekBoth_enc, seekBoth_enc, h.enc, hsel, hv]
  life := h.life
  drainBusy := h.drainBusy
  fifo := h.fifo

theorem AgreeOnLane.startDrain {b : Bool} {s t : State} (h : AgreeOnLane b s t) :
    AgreeOnLane b (startDrain s) (startDrain t) :=
  ⟨h.enc, h.life, rfl, h.fifo⟩

theorem AgreeOnLane.readComplete {b : Bool} {s t : State} (h : AgreeOnLane b s t) :
    AgreeOnLane b (readComplete s) (readComplete t) :=
  ⟨h.enc, h.life, rfl, h.fifo⟩

/-- The checks read `life` alone, so both machines take the same branch (R184). -/
theorem AgreeOnLane.checked {b : Bool} {s t : State} (h : AgreeOnLane b s t) (check : Life → Option Cause)
    (hs ht : Header) {f g : State → State} (hrun : AgreeOnLane b (f s) (g t)) :
    AgreeOnLane b (checked check hs f s) (checked check ht g t) := by
  rcases checked_cases check hs f s with ⟨hl, e⟩ | ⟨cause, hl, hc, e⟩ | ⟨hl, hc, e⟩ <;> rw [e] <;> rw [h.life] at hl
  · rw [checked_faulted hl]
    exact h.respond ..
  · rw [checked_fault hl (h.life ▸ hc)]
    exact h.raiseFault ..
  · rw [checked_run hl (h.life ▸ hc)]
    exact hrun

/-- A drain step takes the same sample bits off both FIFOs, or completes both READs with the lane's position. -/
theorem AgreeOnLane.drainStep {b : Bool} {s t : State} (h : AgreeOnLane b s t) :
    AgreeOnLane b (drainStep s) (drainStep t) ∧
      (drainStep s).rsp.map (·.pos b) = (drainStep t).rsp.map (·.pos b) := by
  have hf := h.fifo
  rcases drainStep_cases s with ⟨v, q, hs, es⟩ | ⟨hs, es⟩ <;>
    rcases drainStep_cases t with ⟨w, r, ht, et⟩ | ⟨ht, et⟩ <;>
      simp only [hs, ht, List.map_cons, List.map_nil, List.cons.injEq, reduceCtorEq] at hf <;> rw [es, et]
  · have hpopped : AgreeOnLane b { s with chan := { s.chan with fifo := q }, rsp := none }
        { t with chan := { t.chan with fifo := r }, rsp := none } := ⟨h.enc, h.life, h.drainBusy, hf.2⟩
    exact ⟨hpopped.applySample hf.1, rfl⟩
  · exact ⟨h.readComplete, by rw [readComplete_pos, readComplete_pos, h.enc]⟩

/-- Executing on both machines two instructions of one kind, whose runs keep agreement, keeps agreement. -/
theorem AgreeOnLane.executed {b : Bool} {s t s' t' : State} {i j : Instr} (h : AgreeOnLane b s t)
    (hs : exec i s = .next s') (ht : exec j t = .next t') (hck : lifecycleCheck i = lifecycleCheck j)
    (hrun : AgreeOnLane b (runInstr i s) (runInstr j t)) : AgreeOnLane b s' t' := by
  rw [exec_eq_checked] at hs ht
  cases hs
  cases ht
  rw [hck]
  exact h.checked _ _ _ hrun

theorem AgreeOnLane.consume {b : Bool} {s t s' t' : State} {v w : Sample} (h : AgreeOnLane b s t)
    (hw : lanePhase b v = lanePhase b w) (hs : exec (.consume v) s = .next s')
    (ht : exec (.consume w) t = .next t') : AgreeOnLane b s' t' :=
  h.executed hs ht rfl ((h.applySample hw).respond ..)

theorem AgreeOnLane.read {b : Bool} {s t s' t' : State} (h : AgreeOnLane b s t)
    (hs : exec .read s = .next s') (ht : exec .read t = .next t') : AgreeOnLane b s' t' :=
  h.executed hs ht rfl h.startDrain

theorem AgreeOnLane.seek {b : Bool} {s t s' t' : State} {sel sel' : BitVec 2} {v0 v1 v0' v1' : Acc}
    (h : AgreeOnLane b s t) (hsel : sel.getLsbD b.toNat = sel'.getLsbD b.toNat)
    (hv : (if b then v1 else v0) = (if b then v1' else v0')) (hs : exec (.seek sel v0 v1) s = .next s')
    (ht : exec (.seek sel' v0' v1') t = .next t') : AgreeOnLane b s' t' :=
  h.executed hs ht rfl ((h.seekBoth hsel hv).respond ..)

/-! ## The statement -/

/-- Settles O19: agreement on either lane is kept, taken once for each. -/
theorem commandsKeepTheLanesApart : Obligations.CommandsKeepTheLanesApart := by
  constructor <;> intro s t h
  · simp only [← agreeOnLane_false_iff] at h ⊢
    exact ⟨h.drainStep.1, h.drainStep.2, fun _ _ _ _ hw => h.consume hw, fun _ _ => h.read,
      fun _ _ _ _ _ _ _ hsel => h.seek hsel rfl⟩
  · simp only [← agreeOnLane_true_iff] at h ⊢
    exact ⟨h.drainStep.1, h.drainStep.2, fun _ _ _ _ hw => h.consume hw, fun _ _ => h.read,
      fun _ _ _ _ _ _ _ hsel => h.seek hsel rfl⟩

end Sys2Proof.Machine
end

section
/-! Commands taken from the port, the drain of a READ, and runs of several steps: O5, O23, O24, O26 and O32. -/

namespace Sys2Proof.Machine

/-! ## The step that takes a command (R57, R75) -/

theorem nextMove_of_cycle {s : State} {e : Event} {rest : List Event} (hs : s.script = []) (hc : s.cycle = e :: rest) :
    nextMove s = some (e, { s with script := rest }) := by
  simp [nextMove, hs, hc]

theorem nextMove_eq_none {s : State} (hs : s.script = []) (hc : s.cycle = []) : nextMove s = none := by
  simp [nextMove, hs, hc]

/-- With the port free the command that is next is taken and runs (R75, R184). -/
theorem step_command_free {s s' : State} {c : Command} {i : Instr} (hm : nextMove s = some (.command c, s'))
    (hb : s.drainBusy = false) (hd : decode c = .instr i) : step s = exec i s' := by
  simp [step, hm, hb, acceptCommand, hd]

/-- A table word that is an instruction fits its 16 bits and decodes to that instruction. -/
theorem decode_of_decodeTableWord {w : Nat} {i : Instr} (h : decodeTableWord 16 w = some i) :
    w < 2 ^ 16 ∧ decode (.ofHeader (BitVec.ofNat 16 w)) = .instr i := by
  unfold decodeTableWord at h
  split at h
  next hw =>
    refine ⟨hw.2, ?_⟩
    split at h <;> cases h
    assumption
  next => cases h

/-- A 16-bit word placed for fetching is the header of the command that is first. -/
theorem withFetchWord_of_lt {w : Nat} (s : State) (hw : w < 2 ^ 16) :
    s.withFetchWord 16 w = placeCommand (.ofHeader (BitVec.ofNat 16 w)) s := by
  rw [State.withFetchWord, Nat.mod_eq_of_lt hw]

theorem decode_encode_read : decode (encode .read) = .instr .read := by decide

theorem decode_encode_consume (w : Sample) : decode (encode (.consume w)) = .instr (.consume w) := by
  revert w; decide

/-- An instruction whose checks pass runs (R184). -/
theorem exec_run {i : Instr} {s : State} (hl : s.life ≠ .faulted) (hc : lifecycleCheck i s.life = none) :
    exec i s = .next (runInstr i s) := by
  rw [exec_eq_checked, checked_run hl hc]

/-- A host's instruction, next in the script with the port free, runs when ACTIVE admits it (R57, R167). -/
theorem step_hostMove_active {s : State} {i : Instr} {rest : List Event} (hl : s.life = .active)
    (hb : s.drainBusy = false) (hs : s.script = hostMove i :: rest) (hd : decode (encode i) = .instr i)
    (hc : lifecycleCheck i .active = none) : step s = .next (runInstr i { s with script := rest }) := by
  rw [step_command_free (nextMove_of_script hs) hb hd]
  exact exec_run (by simp [hl]) (by simpa [hl] using hc)

/-! ## The step of a READ in progress (R142) -/

theorem blockTurn_busy {s : State} (hb : s.drainBusy = true) : blockTurn s = drainStep s := if_pos hb

theorem step_turn {s s' : State} (hm : nextMove s = some (.turn, s')) : step s = .next (blockTurn s') := by
  simp [step, hm]

/-- While a READ is in progress and nobody but the host is to move, the step is a drain step and takes no move
(R31, R142). -/
theorem step_busy_of_hostOnly {s : State} (hb : s.drainBusy = true) (ho : HostOnly s.script s.cycle) :
    step s = .next (drainStep s) := by
  unfold HostOnly at ho
  split at ho
  next hs => exact step_command_busy (nextMove_of_script hs) hb
  next hs hc => exact step_command_busy (nextMove_of_cycle hs hc) hb
  next hs hc => simp [step, nextMove_eq_none hs hc, blockTurn_busy hb]
  next => exact ho.elim

/-- A drain step that finds a sample leaves the READ in progress (R142). -/
theorem drainStep_drainBusy_of_sample {s : State} {w : Sample} {rest : List Sample} (h : s.chan.fifo = w :: rest) :
    (drainStep s).drainBusy = s.drainBusy := by
  rw [drainStep_sample h]; rfl

theorem drainStep_fifo_of_sample {s : State} {w : Sample} {rest : List Sample} (h : s.chan.fifo = w :: rest) :
    (drainStep s).chan.fifo = rest := by
  rw [drainStep_sample h]; rfl

/-! ## Runs of several steps -/

theorem run_succ_of_step {s t : State} (h : step s = .next t) (n : Nat) : run (n + 1) s = run n t := by
  simp [run, h]

/-- A run goes on from the state that its first part reaches. -/
theorem run_add_of_run {s t : State} {m : Nat} (h : run m s = some t) (n : Nat) : run (m + n) s = run n t := by
  induction m generalizing s with
  | zero => cases h; rw [Nat.zero_add]
  | succ m ih =>
    rw [Nat.add_right_comm]
    rw [run] at h ⊢
    split at h
    next => exact ih h
    next => cases h
    next => cases h

/-! ## The drain of a READ (R58, R142, R143) -/

/-- The state in which a READ ends that drains what the FIFO holds now: each encoder fed its phases of the buffered
samples, oldest first, and the READ completed. -/
def drained (s : State) : State :=
  readComplete { s with
    enc0 := feed (s.chan.fifo.map phase0) s.enc0
    enc1 := feed (s.chan.fifo.map phase1) s.enc1
    chan := { s.chan with fifo := [] } }

/-- On an empty FIFO the READ only completes (R143). -/
theorem drained_of_empty {s : State} (h : s.chan.fifo = []) : drained s = readComplete s := by
  obtain ⟨_, _, _, _, _, _, _, ⟨_, _, _, _, _, _⟩, _, _⟩ := s
  cases h
  rfl

/-- A drain step takes the oldest sample and leaves the end of the READ as it was (R142). -/
theorem drained_drainStep {s : State} {w : Sample} {rest : List Sample} (h : s.chan.fifo = w :: rest) :
    drained (drainStep s) = drained s := by
  rw [drainStep_sample h, drained, drained, h]
  rfl

/-- With no sample arriving, a READ in progress ends after one step for each buffered sample and one more. -/
theorem run_drain {s : State} (hb : s.drainBusy = true) (ho : HostOnly s.script s.cycle) :
    run (s.chan.fifo.length + 1) s = some (drained s) := by
  induction hq : s.chan.fifo generalizing s with
  | nil =>
    rw [List.length_nil, run_succ_of_step (step_busy_of_hostOnly hb ho), drainStep_empty hq, drained_of_empty hq]
    rfl
  | cons w rest ih =>
    rw [List.length_cons, run_succ_of_step (step_busy_of_hostOnly hb ho), ← drained_drainStep hq]
    refine ih ?_ ?_ (drainStep_fifo_of_sample hq)
    · rw [drainStep_drainBusy_of_sample hq, hb]
    · rwa [drainStep_script, drainStep_cycle]

/-- A READ command takes one step more, its accepting step (R141). -/
theorem run_read {s : State} {rest : List Event} (hl : s.life = .active) (hb : s.drainBusy = false)
    (hs : s.script = hostMove .read :: rest) (ho : HostOnly rest s.cycle) :
    run (s.chan.fifo.length + 2) s = some (drained { s with script := rest }) := by
  rw [run_succ_of_step (step_hostMove_active hl hb hs decode_encode_read rfl)]
  exact run_drain (s := startDrain { s with script := rest }) rfl ho

/-! ## The statements -/

/-- Settles O5: wherever the command stands, it is the next move, and taking it changes the script alone. -/
theorem stepRunsTheDecodedInstruction : Obligations.StepRunsTheDecodedInstruction := by
  refine ⟨fun s c rest i hs hb hd => ?_, fun s c rest i hs hc hb hd => ?_, fun s w i h => ?_⟩
  · exact step_command_free (nextMove_of_script hs) hb hd
  · exact step_command_free (nextMove_of_cycle hs hc) hb hd
  · obtain ⟨hw, hd⟩ := decode_of_decodeTableWord h
    rw [withFetchWord_of_lt s hw]
    exact step_command_free (nextMove_of_script (placeCommand_script _ s)) (placeCommand_drainBusy _ s) hd

/-- Settles O23: the step of a READ in progress is a drain step, whose two outcomes the FIFO decides. -/
theorem drainStepAppliesTheOldestSample : Obligations.DrainStepAppliesTheOldestSample := by
  refine ⟨fun s w q hb ho hq => ?_, fun s hb ho hq => ?_, fun s rest hb hs => ?_⟩
  · rw [step_busy_of_hostOnly hb ho, drainStep_sample hq]
    rfl
  · rw [step_busy_of_hostOnly hb ho, drainStep_empty hq]
    rfl
  · rw [step_turn (nextMove_of_script hs)]
    exact congrArg _ (blockTurn_busy hb)

/-- Settles O24: by induction on the FIFO from the drain, and with the accepting step in front from the command. -/
theorem readDrainsEverythingThenAnswers : Obligations.ReadDrainsEverythingThenAnswers :=
  ⟨fun _ hb ho => run_drain hb ho, fun _ _ hl hb hs ho => run_read hl hb hs ho⟩

/-- Settles O26: the first READ leaves an empty FIFO, so the second only completes, on the same encoders. -/
theorem twoReadsInARowAgree : Obligations.TwoReadsInARowAgree := by
  intro s hl hb hc hs
  let t := drained { s with script := [hostMove .read] }
  have hfirst : run (s.chan.fifo.length + 2) s = some t := run_read hl hb hs trivial
  have hsecond : run 2 t = some (drained { t with script := [] }) :=
    run_read (s := t) (rest := []) hl rfl rfl (by rw [show t.cycle = [] from hc]; trivial)
  rw [drained_of_empty rfl] at hsecond
  exact ⟨t, _, hfirst, (run_add_of_run hfirst 2).trans hsecond, rfl, rfl, rfl, rfl⟩

/-- Settles O32: the CONSUME is applied in its own step, which leaves the channel to the READ that follows. -/
theorem hostSampleGoesAheadOfBufferedOnes : Obligations.HostSampleGoesAheadOfBufferedOnes := by
  intro s w hl hb hc hs
  let u := respondOk (applySample w { s with script := [hostMove .read] })
  have hstep : step s = .next u := step_hostMove_active hl hb hs (decode_encode_consume w) rfl
  have hread : run (s.chan.fifo.length + 2) u = some (drained { u with script := [] }) :=
    run_read (s := u) (rest := []) hl hb rfl (by rw [show u.cycle = [] from hc]; trivial)
  exact ⟨⟨u, run_succ_of_step hstep 0, rfl⟩, _, (run_succ_of_step hstep _).trans hread, rfl, rfl⟩

end Sys2Proof.Machine
end

section
/-! The decoder as the table of R73 read both ways: O1, O2, O3 and O4. -/

namespace Sys2Proof

open Laws.HeaderRow (opOf)

/-! ## The operation field tells the rows apart (R72, R73) -/

/-- Every mask keeps the three bits of `op`, so a row selects only headers with its own `op`. -/
theorem opField_of_selects {r : OpcodeRow} {h : Header} (hr : r ∈ opcodeRows) (hs : r.selects h = true) :
    opField h = opField r.pattern := by
  have hmask : ∀ r ∈ opcodeRows, opField r.mask = BitVec.allOnes 3 := by decide
  have hpattern : h &&& r.mask = r.pattern := beq_iff_eq.mp hs
  calc opField h = opField h &&& opField r.mask := by rw [hmask r hr, BitVec.and_allOnes]
    _ = opField (h &&& r.mask) := BitVec.extractLsb'_and.symm
    _ = opField r.pattern := by rw [hpattern]

/-- `H[2:1] = 0b11` says that `op` is 6 or 7 (R74). -/
theorem illegalOpcode_iff (h : Header) : illegalOpcode h = true ↔ opField h = 0b110#3 ∨ opField h = 0b111#3 := by
  have hsub : h.extractLsb' 1 2 = (opField h).extractLsb' 1 2 := by
    ext k hk
    interval_cases k <;> simp [opField]
  have hall : ∀ op : BitVec 3, op.extractLsb' 1 2 = 0b11#2 ↔ op = 0b110#3 ∨ op = 0b111#3 := by decide
  rw [illegalOpcode, beq_iff_eq, hsub]
  exact hall _

/-- No row has an illegal opcode (R72, R74). -/
theorem not_illegalOpcode_of_selects {r : OpcodeRow} {h : Header} (hr : r ∈ opcodeRows) (hs : r.selects h = true) :
    illegalOpcode h = false := by
  have hlegal : ∀ r ∈ opcodeRows, ¬(opField r.pattern = 0b110#3 ∨ opField r.pattern = 0b111#3) := by decide
  rw [← Bool.not_eq_true, illegalOpcode_iff, opField_of_selects hr hs]
  exact hlegal r hr

/-- At most one row selects a header. -/
theorem row_unique {r r' : OpcodeRow} {h : Header} (hr : r ∈ opcodeRows) (hr' : r' ∈ opcodeRows)
    (hs : r.selects h = true) (hs' : r'.selects h = true) : r = r' := by
  have hinj : ∀ r ∈ opcodeRows, ∀ r' ∈ opcodeRows, opField r.pattern = opField r'.pattern → r = r' := by decide
  exact hinj r hr r' hr' ((opField_of_selects hr hs).symm.trans (opField_of_selects hr' hs'))

/-! ## What decodes to an instruction, and to which (R75, R76) -/

@[simp] theorem opOf_assembleOperands (op : Op) (c : Command) : opOf (assembleOperands op c) = op := by
  cases op <;> rfl

/-- A command that a row selects is the row's instruction on the command's fields and ports. -/
theorem decode_of_selects {c : Command} {r : OpcodeRow} (hr : r ∈ opcodeRows) (hs : r.selects c.header = true) :
    decode c = .instr (assembleOperands r.op c) := by
  rcases decode_cases c with ⟨hi, -⟩ | ⟨-, r', hr', hs', hd⟩ | ⟨-, hnone, -⟩
  · exact absurd ((not_illegalOpcode_of_selects hr hs).symm.trans hi) (by decide)
  · rwa [row_unique hr hr' hs hs']
  · exact absurd ((hnone r hr).symm.trans hs) (by decide)

/-- A decoded instruction is assembled from the command by the row of its own operation, which selects the header. -/
theorem row_of_decode {c : Command} {i : Instr} (hd : decode c = .instr i) :
    i = assembleOperands (opOf i) c ∧ ∃ r ∈ opcodeRows, r.op = opOf i ∧ r.selects c.header = true := by
  rcases decode_cases c with ⟨-, h⟩ | ⟨-, r, hr, hs, h⟩ | ⟨-, -, h⟩ <;> rw [hd] at h <;> cases h
  rw [opOf_assembleOperands]
  exact ⟨rfl, r, hr, rfl, hs⟩

/-- Decoding gives an operation exactly when that operation's row selects the header (R73). -/
theorem decode_eq_assembleOperands_iff {c : Command} {r : OpcodeRow} (hr : r ∈ opcodeRows) :
    decode c = .instr (assembleOperands r.op c) ↔ c.header &&& r.mask = r.pattern := by
  have hinj : ∀ r ∈ opcodeRows, ∀ r' ∈ opcodeRows, r'.op = r.op → r' = r := by decide
  refine ⟨fun hd => ?_, fun hp => decode_of_selects hr (beq_iff_eq.mpr hp)⟩
  obtain ⟨-, r', hr', hop, hs⟩ := row_of_decode hd
  rw [opOf_assembleOperands] at hop
  rw [← hinj r hr r' hr' hop]
  exact beq_iff_eq.mp hs

theorem decode_illegal_iff_opField (c : Command) :
    decode c = .illegalOpcode ↔ opField c.header = 0b110#3 ∨ opField c.header = 0b111#3 :=
  (decode_illegal_iff c).trans (illegalOpcode_iff c.header)

/-- The third of R75's three things is what the other two leave. -/
theorem decode_reserved_iff (c : Command) :
    decode c = .reservedNonzero ↔
      ¬(opField c.header = 0b110#3 ∨ opField c.header = 0b111#3) ∧
        ∀ r ∈ opcodeRows, c.header &&& r.mask ≠ r.pattern := by
  rw [← decode_illegal_iff_opField]
  constructor
  · intro hd
    refine ⟨by rw [hd]; nofun, fun r hr hp => ?_⟩
    rw [decode_of_selects hr (beq_iff_eq.mpr hp)] at hd
    cases hd
  · rintro ⟨hlegal, hnone⟩
    rcases decode_cases c with ⟨-, hd⟩ | ⟨-, r, hr, hs, -⟩ | ⟨-, -, hd⟩
    · exact absurd hd hlegal
    · exact absurd (beq_iff_eq.mp hs) (hnone r hr)
    · exact hd

/-- `decode_reserved_iff` with the six rows of R73 written out. -/
theorem decode_reserved_iff_rows (c : Command) :
    decode c = .reservedNonzero ↔
      ¬(c.header.extractLsb' 0 3 = 0b110#3 ∨ c.header.extractLsb' 0 3 = 0b111#3) ∧
      c.header &&& 0xFFFF#16 ≠ 0x0000#16 ∧ c.header &&& 0xFF0F#16 ≠ 0x0001#16 ∧
      c.header &&& 0xFFFF#16 ≠ 0x0002#16 ∧ c.header &&& 0xFCFF#16 ≠ 0x0003#16 ∧
      c.header &&& 0xFFFF#16 ≠ 0x0004#16 ∧ c.header &&& 0xFFFF#16 ≠ 0x0005#16 := by
  rw [decode_reserved_iff]
  simp only [opcodeRows, List.forall_mem_cons, List.not_mem_nil, false_imp_iff, implies_true, and_true]
  rfl

/-! ## Seek ports (R70, R76, R80) -/

/-- The port of a decoded SEEK is in assembler form, whatever the command's port carries. -/
theorem seekPortOk_usedPort {W : Nat} (selected : Bool) (v : BitVec W) :
    seekPortOk selected (usedPort selected v) = true := by
  cases selected <;> simp [seekPortOk, usedPort]

/-- A port in assembler form is read back as it was driven. -/
theorem usedPort_of_seekPortOk {W : Nat} {selected : Bool} {v : BitVec W} (h : seekPortOk selected v = true) :
    usedPort selected v = v := by
  cases selected
  · exact (beq_iff_eq.mp h).symm
  · rfl

theorem wellFormed_assembleOperands (op : Op) (c : Command) : (assembleOperands op c).wellFormed = true := by
  cases op with
  | seek => simp only [assembleOperands, Instr.wellFormed, seekPortOk_usedPort, Bool.and_self]
  | nop | consume | read | configure | release => rfl

/-- Bit `k` of `sel` is bit `k + 8` of the header (R71). -/
theorem selField_getLsbD (h : Header) {k : Nat} (hk : k < 2) : (selField h).getLsbD k = h.getLsbD (8 + k) := by
  simp [selField, hk]

/-! ## Encoding (R80) -/

@[simp] theorem encode_header (i : Instr) : (encode i).header = encodeHeader i := by
  cases i <;> rfl

/-- The header of every instruction is selected by its own row and by no other (R73). -/
theorem headerRow_statement (i : Instr) : Laws.HeaderRow.Statement i := by
  cases i with
  | nop => exact Laws.HeaderRow.nop
  | consume smp => exact Laws.HeaderRow.consume smp
  | read => exact Laws.HeaderRow.read
  | seek sel v0 v1 => exact Laws.HeaderRow.seek sel v0 v1
  | configure l0 l1 l2 l3 => exact Laws.HeaderRow.configure l0 l1 l2 l3
  | release => exact Laws.HeaderRow.release

/-- Every operation has a row (R72). -/
theorem exists_row (op : Op) : ∃ r ∈ opcodeRows, r.op = op := by
  cases op <;> decide

theorem smpField_encodeHeader (smp : Sample) : smpField (encodeHeader (.consume smp)) = smp := by
  revert smp; decide

theorem selField_encodeHeader (sel : BitVec 2) (v0 v1 : Acc) : selField (encodeHeader (.seek sel v0 v1)) = sel := by
  simp only [encodeHeader]; revert sel; decide

/-- The fields and ports of an encoded instruction are its operands; only a seek port may have to be 0 for that. -/
theorem assembleOperands_encode {i : Instr} (hwf : i.wellFormed = true) :
    assembleOperands (opOf i) (encode i) = i := by
  cases i with
  | nop | read | configure | release => rfl
  | consume smp => exact congrArg Instr.consume (smpField_encodeHeader smp)
  | seek sel v0 v1 =>
    obtain ⟨h0, h1⟩ : seekPortOk (sel.getLsbD 0) v0 = true ∧ seekPortOk (sel.getLsbD 1) v1 = true := by
      simpa only [Instr.wellFormed, Bool.and_eq_true] using hwf
    simp only [opOf, assembleOperands, encode_header, selField_encodeHeader]
    exact congrArg₂ (Instr.seek sel) (usedPort_of_seekPortOk h0) (usedPort_of_seekPortOk h1)

/-! ## The statements -/

/-- Settles O1: the instruction's own row selects its header, and the fields and ports give its operands back. -/
theorem encodedInstructionDecodesBack : Obligations.EncodedInstructionDecodesBack := by
  intro i hwf
  obtain ⟨r, hr, hop⟩ := exists_row (opOf i)
  have hs : r.selects (encode i).header = true := by
    rw [encode_header]
    exact ((headerRow_statement i).2 r hr).mpr hop
  rw [decode_of_selects hr hs, hop, assembleOperands_encode hwf]

/-- Settles O2: the instruction is assembled from the command, field by field and port by port. -/
theorem decodedInstructionHoldsTheCommand : Obligations.DecodedInstructionHoldsTheCommand := by
  intro c i hd
  have hi : i = assembleOperands (opOf i) c := (row_of_decode hd).1
  refine ⟨hi ▸ wellFormed_assembleOperands _ c, encodeHeader_of_decode hd, ?_⟩
  cases i with
  | nop | read | release => trivial
  | consume smp => exact Instr.consume.inj hi
  | seek sel v0 v1 =>
    obtain ⟨hsel, h0, h1⟩ := Instr.seek.inj hi
    rw [selField_getLsbD c.header (by decide)] at h0 h1
    exact ⟨hsel, h0, h1⟩
  | configure l0 l1 l2 l3 => exact Instr.configure.inj hi

/-- Settles O3: each row's equivalence, the illegal opcodes, and what both leave. -/
theorem everyHeaderIsOneOfThree : Obligations.EveryHeaderIsOneOfThree := by
  intro c
  have row : ∀ r ∈ opcodeRows, decode c = .instr (assembleOperands r.op c) ↔ c.header &&& r.mask = r.pattern :=
    fun _ => decode_eq_assembleOperands_iff
  have assembled : ∀ {i : Instr}, decode c = .instr i → decode c = .instr (assembleOperands (opOf i) c) :=
    fun hd => hd.trans (congrArg _ (row_of_decode hd).1)
  simp only [opcodeRows, List.forall_mem_cons, List.not_mem_nil, false_imp_iff, implies_true, and_true] at row
  obtain ⟨hnop, hconsume, hread, hseek, hconfigure, hrelease⟩ := row
  refine ⟨decode_illegal_iff_opField c, hnop, Iff.trans ⟨?_, fun hd => ⟨_, hd⟩⟩ hconsume, hread,
    Iff.trans ⟨?_, fun hd => ⟨_, _, _, hd⟩⟩ hseek, Iff.trans ⟨?_, fun hd => ⟨_, _, _, _, hd⟩⟩ hconfigure, hrelease,
    decode_reserved_iff_rows c⟩
  · rintro ⟨smp, hd⟩
    exact assembled hd
  · rintro ⟨sel, v0, v1, hd⟩
    exact assembled hd
  · rintro ⟨l0, l1, l2, l3, hd⟩
    exact assembled hd

/-- Settles O4: each word is evaluated. -/
theorem writtenWordsDecode : Obligations.WrittenWordsDecode :=
  ⟨rfl, rfl, rfl, rfl, rfl, rfl, rfl, rfl⟩

end Sys2Proof
end

section
/-! Headers that are no instruction, steps that have a next state, and who answers positions: O7, O8, O48 and O52. -/

namespace Sys2Proof.Machine

/-! ## The step that takes a header of no instruction (R180, R184) -/

/-- With the port free the command that is next is accepted (R57). -/
theorem step_command_accept {s s' : State} {c : Command} (hm : nextMove s = some (.command c, s'))
    (hb : s.drainBusy = false) : step s = acceptCommand c s' := by
  simp [step, hm, hb]

/-- Outside FAULTED no lifecycle state stands before the encoding fault (R184). -/
theorem rejectHeader_of_ne_faulted {s : State} (hl : s.life ≠ .faulted) (cause : Cause) (h : Header) :
    rejectHeader cause h s = raiseFault cause h s := by
  rcases rejectHeader_cases cause h s with ⟨hl', -⟩ | ⟨-, e⟩
  · exact absurd hl' hl
  · exact e

/-- Outside FAULTED an illegal opcode raises its fault (R74, R184). -/
theorem acceptCommand_illegal {c : Command} {s : State} (hd : decode c = .illegalOpcode) (hl : s.life ≠ .faulted) :
    acceptCommand c s = .next (raiseFault .illegalOpcode c.header s) := by
  rw [acceptCommand, hd]
  exact congrArg _ (rejectHeader_of_ne_faulted hl _ _)

/-- Outside FAULTED a non-zero reserved or unused bit raises its fault (R73, R184). -/
theorem acceptCommand_reserved {c : Command} {s : State} (hd : decode c = .reservedNonzero) (hl : s.life ≠ .faulted) :
    acceptCommand c s = .next (raiseFault .reservedNonzero c.header s) := by
  rw [acceptCommand, hd]
  exact congrArg _ (rejectHeader_of_ne_faulted hl _ _)

/-! ## Responses without a position (R76) -/

/-- The state's response, if there is one, drives both positions to 0. -/
def AnswersNoPosition (t : State) : Prop := ∀ r, t.rsp = some r → r.pos0 = 0 ∧ r.pos1 = 0

theorem answersNoPosition_of_none {t : State} (h : t.rsp = none) : AnswersNoPosition t := fun _ hr => by
  cases h.symm.trans hr

theorem answersNoPosition_of_zero {t : State} {status : Status} (h : t.rsp = some ⟨status, 0, 0⟩) :
    AnswersNoPosition t := fun _ hr => by
  cases h.symm.trans hr
  exact ⟨rfl, rfl⟩

/-- No instruction answers a position in its own step: READ does not answer there at all (R141). -/
theorem RunOutcome.answersNoPosition {s t : State} {i : Instr} (h : RunOutcome s i t) : AnswersNoPosition t := by
  cases h with
  | busy => exact answersNoPosition_of_none rfl
  | completed | rejected | teardownFailed => exact answersNoPosition_of_zero rfl

/-- A step answers no position, or it is the drain step that completes a READ on an empty FIFO (R143). -/
theorem StepKind.position_cases {s t : State} (h : StepKind s t) :
    AnswersNoPosition t ∨
    (s.drainBusy = true ∧ s.chan.fifo = [] ∧ ∃ rest, t = readComplete { s with script := rest }) := by
  cases h with
  | drained rest hb =>
    rcases drainStep_cases { s with script := rest } with ⟨w, q, -, h⟩ | ⟨hq, h⟩ <;> rw [h]
    · exact .inl (answersNoPosition_of_none rfl)
    · exact .inr ⟨hb, hq, rest, rfl⟩
  | idle | produced | reset | replaced => exact .inl (answersNoPosition_of_none rfl)
  | turnedAway | raised => exact .inl (answersNoPosition_of_zero rfl)
  | ran rest hm hb hl hd hc => exact .inl (runInstr_outcome { s with script := rest } hl hc).answersNoPosition

/-! ## The statements -/

/-- Settles O7: the header is rejected whatever `life` is, and the rejection is the fault entry with cause 1. -/
theorem illegalOpcodeFaults : Obligations.IllegalOpcodeFaults := by
  intro s c rest hs hb hl hop
  have hd : decode c = .illegalOpcode := (decode_illegal_iff_opField c).mpr hop
  exact (step_command_accept (nextMove_of_script hs) hb).trans (acceptCommand_illegal hd hl)

/-- Settles O8: a header that is no illegal opcode and that no row selects is rejected with cause 2. -/
theorem reservedBitFaults : Obligations.ReservedBitFaults := by
  intro s c rest hs hb hl hop hrows
  have hd : decode c = .reservedNonzero := (decode_reserved_iff_rows c).mpr ⟨hop, hrows⟩
  exact (step_command_accept (nextMove_of_script hs) hb).trans (acceptCommand_reserved hd hl)

/-- Settles O48: every kind of step, and every arm of `exec`, is a next state. -/
theorem noStepEverStops : Obligations.NoStepEverStops :=
  ⟨fun s => (step_channelStep s).imp fun _ => And.left, fun i s => ⟨_, exec_eq_checked i s⟩⟩

/-- Settles O52: a response with a position is no other step's, so it is the completing drain step's. -/
theorem positionsOnlyInReadResponses : Obligations.PositionsOnlyInReadResponses := by
  intro s t r hstep hr hpos
  rcases (step_kind hstep).position_cases with hnone | ⟨hb, hq, rest, rfl⟩
  · obtain ⟨h0, h1⟩ := hnone r hr
    exact (hpos.elim (· h0) (· h1)).elim
  · exact ⟨hb, (chanAvail_eq_false s.chan).mpr hq, rfl, (Option.some.inj hr).symm⟩

end Sys2Proof.Machine
end

section
/-! The assembler's lines (R80) and pseudo-instructions (R81): O55. -/

namespace Sys2Proof.Machine

/-- A seek value from -8 to 15 fits every accumulator width R5 allows. -/
theorem accField_of_fourBits {t : List Char} {v : Int} (ht : intField t = some v) (hlo : -8 ≤ v) (hhi : v < 16) :
    accField Config.accWidth t = some (BitVec.ofInt Config.accWidth v) := by
  have hsigned : (2 : Int) ^ 3 ≤ 2 ^ (Config.accWidth - 1) :=
    pow_le_pow_right₀ (by decide) (Nat.le_sub_one_of_lt Config.four_le_accWidth)
  have hunsigned : (2 : Int) ^ 4 ≤ 2 ^ Config.accWidth := pow_le_pow_right₀ (by decide) Config.four_le_accWidth
  simp only [accField, ht]
  exact if_pos ⟨by omega, by omega⟩

/-- A SEEK line whose three fields are read drives their values (R80). -/
theorem seekLine_eq {sel v0 v1 : List Char} {b : BitVec 2} {w0 w1 : Acc} (hsel : bitsField 2 sel = some b)
    (h0 : seekField Config.accWidth (b.getLsbD 0) v0 = some w0)
    (h1 : seekField Config.accWidth (b.getLsbD 1) v1 = some w1) :
    seekLine sel v0 v1 = some (encode (.seek b w0 w1)) := by
  simp only [seekLine, hsel, h0, h1]

/-- A CONFIGURE line whose four fields are read drives the four lines in order (R80). -/
theorem configureLine_eq {t0 t1 t2 t3 : List Char} {l0 l1 l2 l3 : LineId}
    (h0 : bitsField Config.lineIdWidth t0 = some l0) (h1 : bitsField Config.lineIdWidth t1 = some l1)
    (h2 : bitsField Config.lineIdWidth t2 = some l2) (h3 : bitsField Config.lineIdWidth t3 = some l3) :
    configureLine t0 t1 t2 t3 = some (encode (.configure l0 l1 l2 l3)) := by
  simp only [configureLine, h0, h1, h2, h3]

/-- With `sel` 3 both fields of a SEEK line are seek values (R80, R145). -/
theorem seekLine_three {v0 v1 : List Char} {w0 w1 : Acc} (h0 : accField Config.accWidth v0 = some w0)
    (h1 : accField Config.accWidth v1 = some w1) : seekLine ['3'] v0 v1 = some (encode (.seek 3 w0 w1)) :=
  seekLine_eq (b := 3) (by decide) h0 h1

/-- Settles O55: lines of fixed text are evaluated, with SEEK's values and CONFIGURE's lines read at any width; each
pseudo-instruction is the SEEK line it expands to by definition. -/
theorem assemblerLinesGiveTheirCommands : Obligations.AssemblerLinesGiveTheirCommands := by
  refine ⟨by decide, by decide, by decide, by decide, ?seek, by decide, by decide, by decide, ?configure,
    fun v => rfl, fun v => rfl, fun v0 v1 => rfl, rfl, rfl⟩
  case seek =>
    have hfields : fieldsFrom [] (stripComment "SEEK 3, 7, -3".toList) =
        ["SEEK".toList, ['3'], ['7'], ['-', '3']] := by decide
    have h7 : accField Config.accWidth ['7'] = some (BitVec.ofInt _ 7) :=
      accField_of_fourBits (by decide) (by decide) (by decide)
    have hneg3 : accField Config.accWidth ['-', '3'] = some (BitVec.ofInt _ (-3)) :=
      accField_of_fourBits (by decide) (by decide) (by decide)
    rw [assembleLine, hfields]
    exact seekLine_three h7 hneg3
  case configure =>
    intro t0 t1 t2 t3 l0 l1 l2 l3 h0 h1 h2 h3
    exact configureLine_eq h0 h1 h2 h3

end Sys2Proof.Machine
end

section
/-! The lookup table counts quarter-steps along the Gray cycle, and what a turn of an encoder adds up to: statements
O10, O11 and O17. -/

namespace Sys2Proof.Machine

/-! ## Quarter-steps along the Gray cycle (R103) -/

/-- The clockwise quarter-steps that lead from one phase to the other: the `k` of R103. -/
def clockwiseSteps (prev curr : Phase) : Nat := (grayRank curr + 4 - grayRank prev) % 4

/-- The delta R103 gives to `k` clockwise quarter-steps under a hint. -/
def stepsDelta (h : Bool) (k : Nat) : Int :=
  if k = 0 then 0 else if k = 1 then 1 else if k = 3 then -1 else if h then 2 else -2

theorem closedForm_eq_stepsDelta (h : Bool) (prev curr : Phase) :
    closedForm h prev curr = stepsDelta h (clockwiseSteps prev curr) := rfl

theorem grayRank_lt (p : Phase) : grayRank p < 4 := by
  unfold grayRank
  split_ifs <;> decide

theorem clockwiseSteps_lt (prev curr : Phase) : clockwiseSteps prev curr < 4 := Nat.mod_lt _ (by decide)

/-- The way back completes the cycle of four. -/
theorem clockwiseSteps_swap (a b : Phase) : clockwiseSteps b a = (4 - clockwiseSteps a b) % 4 := by
  have ha := grayRank_lt a
  have hb := grayRank_lt b
  simp only [clockwiseSteps]
  omega

/-- The phases in which both bits differ stand opposite each other on the cycle. -/
theorem doubleTransition_iff_steps (a b : Phase) : doubleTransition a b = true ↔ clockwiseSteps a b = 2 := by
  revert a b
  decide

/-! ## The deltas of the four step counts -/

@[simp] theorem stepsDelta_zero (h : Bool) : stepsDelta h 0 = 0 := rfl

@[simp] theorem stepsDelta_one (h : Bool) : stepsDelta h 1 = 1 := rfl

@[simp] theorem stepsDelta_two (h : Bool) : stepsDelta h 2 = if h then 2 else -2 := rfl

@[simp] theorem stepsDelta_three (h : Bool) : stepsDelta h 3 = -1 := rfl

theorem stepsDelta_hint_iff {k : Nat} (hk : k < 4) : stepsDelta false k ≠ stepsDelta true k ↔ k = 2 := by
  interval_cases k <;> simp

/-- Walking back takes the delta back, except that half a turn is read in the hint's direction both ways. -/
theorem stepsDelta_swap (h : Bool) {k : Nat} (hk : k < 4) :
    stepsDelta h k = if k = 2 then stepsDelta h ((4 - k) % 4) else -stepsDelta h ((4 - k) % 4) := by
  interval_cases k <;> simp

theorem stepsDelta_bound (h : Bool) (k : Nat) : -2 ≤ stepsDelta h k ∧ stepsDelta h k ≤ 2 := by
  unfold stepsDelta
  split_ifs <;> decide

/-- Half a turn keeps the hint that gave it its sign (R104 item 4, R123). -/
theorem nextHint_stepsDelta_two (h : Bool) : nextHint h (stepsDelta h 2) = h := by cases h <;> rfl

/-! ## The table (R102) -/

/-- Each of the sixteen rows of Table 40-1, under both hints, counts the quarter-steps of its transition. -/
theorem lut_eq_stepsDelta (h : Bool) (prev curr : Phase) :
    lut h (transitionIndex prev curr) = stepsDelta h (clockwiseSteps prev curr) := by
  revert h prev curr
  decide

/-- Every index is that of a transition (R100, R101). -/
theorem exists_transitionIndex (i : TransitionIndex) : ∃ prev curr : Phase, transitionIndex prev curr = i :=
  ⟨i.extractLsb' 2 2, i.extractLsb' 0 2, by revert i; decide⟩

/-- The indices of the double-bit rows of Table 40-1. -/
theorem transitionIndex_double_iff (a b : Phase) :
    (transitionIndex a b = 3 ∨ transitionIndex a b = 6 ∨ transitionIndex a b = 9 ∨ transitionIndex a b = 12) ↔
      doubleTransition a b = true := by
  revert a b
  decide

/-! ## Quarter-steps in one direction (R102, R122, R123) -/

/-- From one phase to the next one on the cycle, clockwise when `cw` holds and counter-clockwise otherwise. -/
abbrev QuarterStep (cw : Bool) (prev curr : Phase) : Prop := clockwiseSteps prev curr = if cw then 1 else 3

/-- The delta of a quarter-step in a direction. -/
def unitDelta (cw : Bool) : Int := if cw then 1 else -1

/-- Whatever the hint, a quarter-step has the delta of its direction (R102). -/
theorem lut_quarterStep {cw : Bool} {prev curr : Phase} (hq : QuarterStep cw prev curr) (h : Bool) :
    lut h (transitionIndex prev curr) = unitDelta cw := by
  rw [lut_eq_stepsDelta, hq]
  cases cw <;> rfl

theorem nextHint_unitDelta (h cw : Bool) : nextHint h (unitDelta cw) = cw := by cases cw <;> rfl

/-- Deltas accumulate by their sum, at any width. -/
theorem accumulate_accumulate {W : Nat} (acc : BitVec W) (d d' : Int) :
    accumulate (accumulate acc d) d' = accumulate acc (d + d') := by
  simp only [accumulate, BitVec.ofInt_add, BitVec.add_assoc]

theorem decodeEncoder_quarterStep {W : Nat} {cw : Bool} {e : Encoder W} {p : Phase} (hq : QuarterStep cw e.prev p) :
    (decodeEncoder e p).1 = { prev := p, hint := cw, acc := accumulate e.acc (unitDelta cw) } := by
  have hd : delta e p = unitDelta cw := lut_quarterStep hq e.hint
  simp only [decodeEncoder, hd, nextHint_unitDelta]

@[simp] theorem feed_cons {W : Nat} (p : Phase) (ps : List Phase) (e : Encoder W) :
    feed (p :: ps) e = feed ps (decodeEncoder e p).1 := rfl

/-- A turn in one direction, however long: one quarter-count per phase, and the hint of its direction. -/
theorem feed_quarterSteps {W : Nat} {cw : Bool} {p : Phase} {ps : List Phase} {e : Encoder W}
    (hq : List.IsChain (QuarterStep cw) (e.prev :: p :: ps)) :
    feed (p :: ps) e =
      { prev := (p :: ps).getLast (List.cons_ne_nil p ps), hint := cw,
        acc := accumulate e.acc ((ps.length + 1) * unitDelta cw) } := by
  induction ps generalizing p e with
  | nil =>
    obtain ⟨hp, -⟩ := List.isChain_cons_cons.mp hq
    simp [decodeEncoder_quarterStep hp, feed]
  | cons p' ps ih =>
    obtain ⟨hp, hps⟩ := List.isChain_cons_cons.mp hq
    rw [feed_cons, ih hps, decodeEncoder_quarterStep hp, accumulate_accumulate]
    have hcount : unitDelta cw + (ps.length + 1) * unitDelta cw = ((p' :: ps).length + 1) * unitDelta cw := by
      push_cast [List.length_cons]
      ring
    rw [hcount, List.getLast_cons_cons]

/-! ## The statements -/

/-- Settles O10: both sides are the delta of the quarter-steps from `prev` to `curr`. -/
theorem lookupTableIsTheClosedForm : Obligations.LookupTableIsTheClosedForm := fun h prev curr =>
  (lut_eq_stepsDelta h prev curr).trans (closedForm_eq_stepsDelta h prev curr).symm

/-- Settles O11: the first four items are facts about the deltas of the four step counts; the sums of the fifth run over
four quarter-steps in one direction. -/
theorem lookupTableProperties : Obligations.LookupTableProperties := by
  refine ⟨?hintDependent, ?reversal, lut_diagonal, ?bound, ?hintKept, ?sums⟩
  case hintDependent =>
    intro i
    obtain ⟨a, b, rfl⟩ := exists_transitionIndex i
    rw [transitionIndex_double_iff, doubleTransition_iff_steps, lut_eq_stepsDelta, lut_eq_stepsDelta]
    exact stepsDelta_hint_iff (clockwiseSteps_lt a b)
  case reversal =>
    intro h a b
    simp only [lut_eq_stepsDelta, clockwiseSteps_swap a b, doubleTransition_iff_steps]
    exact stepsDelta_swap h (clockwiseSteps_lt a b)
  case bound =>
    intro h i
    obtain ⟨a, b, rfl⟩ := exists_transitionIndex i
    rw [lut_eq_stepsDelta]
    exact stepsDelta_bound h _
  case hintKept =>
    intro h a b hd
    rw [lut_eq_stepsDelta, (doubleTransition_iff_steps a b).mp hd]
    exact nextHint_stepsDelta_two h
  case sums =>
    intro h
    have clockwise (a b : Phase) (hq : QuarterStep true a b) : lut h (transitionIndex a b) = 1 := lut_quarterStep hq h
    have reverse (a b : Phase) (hq : QuarterStep false a b) : lut h (transitionIndex a b) = -1 := lut_quarterStep hq h
    have hcw : lut h 1 = 1 ∧ lut h 7 = 1 ∧ lut h 14 = 1 ∧ lut h 8 = 1 :=
      ⟨clockwise 0b00 0b01 rfl, clockwise 0b01 0b11 rfl, clockwise 0b11 0b10 rfl, clockwise 0b10 0b00 rfl⟩
    have hrev : lut h 2 = -1 ∧ lut h 11 = -1 ∧ lut h 13 = -1 ∧ lut h 4 = -1 :=
      ⟨reverse 0b00 0b10 rfl, reverse 0b10 0b11 rfl, reverse 0b11 0b01 rfl, reverse 0b01 0b00 rfl⟩
    omega

/-- Settles O17: each cycle is four quarter-steps in one direction. -/
theorem fullCycleIsFourQuarterCounts : Obligations.FullCycleIsFourQuarterCounts := by
  intro W e he
  have clockwise : List.IsChain (QuarterStep true) [e.prev, 0b01, 0b11, 0b10, 0b00] := by
    rw [he]; decide
  have reverse : List.IsChain (QuarterStep false) [e.prev, 0b10, 0b11, 0b01, 0b00] := by
    rw [he]; decide
  exact ⟨feed_quarterSteps clockwise, feed_quarterSteps reverse⟩

end Sys2Proof.Machine
end

section
/-! One sample on one encoder, at and away from the ends of the accumulator's range, and sample streams on both lanes:
statements O13, O14, O15, O16, O18, O20 and O53. -/

namespace Sys2Proof.Machine

/-! ## The delta of a sample (R103, R104, R121) -/

/-- The delta counts the quarter-steps from the stored phase, under the hint as it stood before the sample. -/
theorem delta_eq_stepsDelta {W : Nat} (e : Encoder W) (p : Phase) :
    delta e p = stepsDelta e.hint (clockwiseSteps e.prev p) := lut_eq_stepsDelta e.hint e.prev p

theorem delta_eq_closedForm {W : Nat} (e : Encoder W) (p : Phase) : delta e p = closedForm e.hint e.prev p :=
  (delta_eq_stepsDelta e p).trans (closedForm_eq_stepsDelta e.hint e.prev p).symm

theorem delta_bound {W : Nat} (e : Encoder W) (p : Phase) : -2 ≤ delta e p ∧ delta e p ≤ 2 := by
  rw [delta_eq_stepsDelta]
  exact stepsDelta_bound e.hint (clockwiseSteps e.prev p)

/-- Half a turn is the one step count that moves by two quarter-counts. -/
theorem stepsDelta_two_iff (h : Bool) {k : Nat} (hk : k < 4) : stepsDelta h k = 2 ∨ stepsDelta h k = -2 ↔ k = 2 := by
  interval_cases k <;> cases h <;> simp

theorem delta_two_iff {W : Nat} (e : Encoder W) (p : Phase) :
    delta e p = 2 ∨ delta e p = -2 ↔ doubleTransition e.prev p = true := by
  rw [delta_eq_stepsDelta, doubleTransition_iff_steps]
  exact stepsDelta_two_iff e.hint (clockwiseSteps_lt e.prev p)

/-- A second sample at the phase of the first moves an encoder by nothing (R104 item 3, R128). -/
theorem decodeEncoder_twice {W : Nat} (e : Encoder W) (p : Phase) :
    (decodeEncoder (decodeEncoder e p).1 p).1 = (decodeEncoder e p).1 := by
  have hd : delta (decodeEncoder e p).1 p = 0 := lut_diagonal _ p
  rw [decodeEncoder, hd, nextHint_zero, accumulate_zero]
  rfl

/-- On its first sample after a construction an encoder counts from phase 00 under hint 0 (R130, R163). -/
theorem decodeEncoder_zero_acc (W : Nat) (p : Phase) :
    (decodeEncoder (Encoder.zero : Encoder W) p).1.acc = BitVec.ofInt W (stepsDelta false (clockwiseSteps 0b00 p)) := by
  rw [decodeEncoder_acc, delta_eq_stepsDelta]
  exact BitVec.zero_add _

/-! ## The accumulator's sum as a signed number (R122) -/

theorem accumulate_toInt {W : Nat} (acc : BitVec W) (d : Int) :
    (accumulate acc d).toInt = (acc.toInt + d).bmod (2 ^ W) := by
  rw [accumulate, BitVec.toInt_add, BitVec.toInt_ofInt, Int.add_bmod_bmod]

/-- The sum is taken back into the range by whole turns of `2 ^ W`, none of them away from the wrap. -/
theorem accumulate_toInt_of_turns {W : Nat} (hW : 0 < W) {acc : BitVec W} {d : Int} (turns : Int)
    (hlo : -(2 ^ (W - 1) : Int) ≤ acc.toInt + d + 2 ^ W * turns)
    (hhi : acc.toInt + d + 2 ^ W * turns < (2 ^ (W - 1) : Int)) :
    (accumulate acc d).toInt = acc.toInt + d + 2 ^ W * turns := by
  calc (accumulate acc d).toInt
    _ = (acc.toInt + d + 2 ^ W * turns).bmod (2 ^ W) := by
      rw [accumulate_toInt, ← Int.add_mul_bmod_self_left _ _ turns, Nat.cast_pow, Nat.cast_ofNat]
    _ = (BitVec.ofInt W (acc.toInt + d + 2 ^ W * turns)).toInt := (BitVec.toInt_ofInt _).symm
    _ = acc.toInt + d + 2 ^ W * turns := BitVec.toInt_ofInt_eq_self hW hlo hhi

/-! ## Both ends of the range, and the position there (R140, R222) -/

/-- The ranges of the accumulator and of one turn, in units of the position's range. -/
theorem two_pow_width {W : Nat} (hW : 4 ≤ W) :
    (2 ^ W : Int) = 8 * 2 ^ (W - 3) ∧ (2 ^ (W - 1) : Int) = 4 * 2 ^ (W - 3) ∧ (2 : Int) ≤ 2 ^ (W - 3) := by
  obtain ⟨n, rfl⟩ := Nat.exists_eq_add_of_le' hW
  have hpos : (0 : Int) < 2 ^ n := by positivity
  simp only [show n + 4 - 3 = n + 1 by omega, show n + 4 - 1 = n + 3 by omega, pow_succ]
  omega

/-- The four accumulator values at the top of the range have the greatest position. -/
theorem position_of_top {W : Nat} (hW : 4 ≤ W) {acc : BitVec W} (h : (2 ^ (W - 1) : Int) - 4 ≤ acc.toInt) :
    (position acc).toInt = 2 ^ (W - 3) - 1 := by
  have hhi : acc.toInt < 2 ^ (W - 1) := BitVec.toInt_lt
  obtain ⟨-, hhalf, -⟩ := two_pow_width hW
  rw [position_toInt_eq_iff]
  omega

/-- The four accumulator values at the bottom of the range have the least position. -/
theorem position_of_bottom {W : Nat} (hW : 4 ≤ W) {acc : BitVec W} (h : acc.toInt < -(2 ^ (W - 1) : Int) + 4) :
    (position acc).toInt = -2 ^ (W - 3) := by
  have hlo : -(2 ^ (W - 1) : Int) ≤ acc.toInt := BitVec.le_toInt acc
  obtain ⟨-, hhalf, -⟩ := two_pow_width hW
  rw [position_toInt_eq_iff]
  omega

/-- Away from the wrap a delta of at most 2 moves the position by at most 1 (R129). -/
theorem position_accumulate_of_inRange {W : Nat} (hW : 4 ≤ W) {acc : BitVec W} {d : Int} (hd : -2 ≤ d ∧ d ≤ 2)
    (hlo : -(2 ^ (W - 1) : Int) ≤ acc.toInt + d) (hhi : acc.toInt + d < (2 ^ (W - 1) : Int)) :
    -1 ≤ (position (accumulate acc d)).toInt - (position acc).toInt ∧
      (position (accumulate acc d)).toInt - (position acc).toInt ≤ 1 := by
  have hsum : (accumulate acc d).toInt = acc.toInt + d + 2 ^ W * 0 :=
    accumulate_toInt_of_turns (by omega) 0 (by omega) (by omega)
  rw [position_toInt, position_toInt, hsum]
  omega

/-- Past the top of the range the position jumps from its greatest value to its least (R129, R222). -/
theorem position_accumulate_of_above {W : Nat} (hW : 4 ≤ W) {acc : BitVec W} {d : Int} (hd : d ≤ 2)
    (h : (2 ^ (W - 1) : Int) ≤ acc.toInt + d) :
    (position acc).toInt = 2 ^ (W - 3) - 1 ∧ (position (accumulate acc d)).toInt = -2 ^ (W - 3) := by
  have hmax : acc.toInt < 2 ^ (W - 1) := BitVec.toInt_lt
  obtain ⟨hturn, hhalf, hunit⟩ := two_pow_width hW
  have hsum : (accumulate acc d).toInt = acc.toInt + d + 2 ^ W * (-1) :=
    accumulate_toInt_of_turns (by omega) (-1) (by omega) (by omega)
  exact ⟨position_of_top hW (by omega), position_of_bottom hW (by omega)⟩

/-- Past the bottom of the range the position jumps from its least value to its greatest (R129, R222). -/
theorem position_accumulate_of_below {W : Nat} (hW : 4 ≤ W) {acc : BitVec W} {d : Int} (hd : -2 ≤ d)
    (h : acc.toInt + d < -(2 ^ (W - 1) : Int)) :
    (position acc).toInt = -2 ^ (W - 3) ∧ (position (accumulate acc d)).toInt = 2 ^ (W - 3) - 1 := by
  have hmin : -(2 ^ (W - 1) : Int) ≤ acc.toInt := BitVec.le_toInt acc
  obtain ⟨hturn, hhalf, hunit⟩ := two_pow_width hW
  have hsum : (accumulate acc d).toInt = acc.toInt + d + 2 ^ W * 1 :=
    accumulate_toInt_of_turns (by omega) 1 (by omega) (by omega)
  exact ⟨position_of_bottom hW (by omega), position_of_top hW (by omega)⟩

/-! ## Samples on both lanes (R27, R58, R125) -/

theorem applySample_twice (w : Sample) (s : State) : applySample w (applySample w s) = applySample w s := by
  simp only [applySample, decodeEncoder_twice]

/-- A sample neither reads nor writes the response port. -/
theorem applySample_respondOk (w : Sample) (s : State) : applySample w (respondOk s) = respondOk (applySample w s) := rfl

theorem respondOk_twice (s : State) : respondOk (respondOk s) = respondOk s := rfl

/-- A stream of samples takes a lane where the lane's own bits take it alone (R127). -/
theorem applySamples_enc (ws : List Sample) (s : State) (b : Bool) :
    (applySamples ws s).enc b = feed (ws.map (lanePhase b)) (s.enc b) := by
  induction ws generalizing s with
  | nil => rfl
  | cons w ws ih =>
    rw [List.map_cons, feed_cons, ← applySample_enc]
    exact ih (applySample w s)

/-- The bits of a sample word that belong to lane `b` (R77). -/
def laneMask (b : Bool) : Sample := if b then 0b1100 else 0b0011

theorem lanePhase_and_laneMask (b : Bool) (w : Sample) : lanePhase b (w &&& laneMask b) = lanePhase b w := by
  revert b w
  decide

/-- With the other lane's bits at zero a stream does the same to a lane (R127). -/
theorem applySamples_masked_enc (ws : List Sample) (s : State) (b : Bool) :
    (applySamples (ws.map (· &&& laneMask b)) s).enc b = (applySamples ws s).enc b := by
  have hphases : (ws.map (· &&& laneMask b)).map (lanePhase b) = ws.map (lanePhase b) := by
    simp [lanePhase_and_laneMask]
  rw [applySamples_enc, applySamples_enc, hphases]

/-- CONSUME runs in ACTIVE (R126, R167). -/
theorem exec_consume_active {s : State} (w : Sample) (hl : s.life = .active) :
    exec (.consume w) s = .next (respondOk (applySample w s)) :=
  exec_run (by simp [hl]) (by rw [hl]; rfl)

/-! ## The statements -/

/-- Settles O13: the delta is R103's, and the sum of two's complement numbers is a sum modulo `2 ^ W`. -/
theorem oneSampleUpdatesOneEncoder : Obligations.OneSampleUpdatesOneEncoder := by
  intro W _ e curr
  rw [← delta_eq_closedForm]
  exact ⟨rfl, accumulate_toInt e.acc (delta e curr), rfl, rfl⟩

/-- Settles O14: the delta's bound keeps a sum that leaves the range within the four values next to the end it left and
those next to the end it reaches. -/
theorem sampleStepIsBounded : Obligations.SampleStepIsBounded := by
  intro W hW e curr
  have hd := delta_bound e curr
  exact ⟨hd, delta_two_iff e curr, rfl, position_accumulate_of_inRange hW hd, position_accumulate_of_above hW hd.2,
    position_accumulate_of_below hW hd.1⟩

/-- Settles O15: each encoder already holds the phase of the repeated sample. -/
theorem repeatedSampleChangesNothing : Obligations.RepeatedSampleChangesNothing := by
  refine ⟨applySample_twice, fun w s t hl h => ?_⟩
  rw [exec_consume_active w hl] at h
  cases h
  have hl' : (respondOk (applySample w s)).life = .active := hl
  rw [exec_consume_active w hl', applySample_respondOk, applySample_twice, respondOk_twice]

/-- Settles O16: one turn brings each sum back, to the other end of the range. -/
theorem accumulatorWraps : Obligations.AccumulatorWraps := by
  intro W hW
  obtain ⟨hturn, hhalf, hunit⟩ := two_pow_width hW
  have hmax : (BitVec.intMax W).toInt = 2 ^ (W - 1) - 1 := BitVec.toInt_intMax
  have hmin : (BitVec.intMin W).toInt = -2 ^ (W - 1) := BitVec.toInt_intMin_of_pos (by omega)
  refine ⟨BitVec.eq_of_toInt_eq ?_, BitVec.eq_of_toInt_eq ?_, position_of_top hW (by omega),
    position_of_bottom hW (by omega)⟩
  · rw [accumulate_toInt_of_turns (by omega) (-1) (by omega) (by omega)]
    omega
  · rw [accumulate_toInt_of_turns (by omega) 1 (by omega) (by omega)]
    omega

/-- Settles O18: by induction on the stream, taken once for each lane. -/
theorem lanesAreIsolatedOverStreams : Obligations.LanesAreIsolatedOverStreams := fun ws s =>
  ⟨applySamples_enc ws s false, applySamples_enc ws s true, applySamples_masked_enc ws s false,
    applySamples_masked_enc ws s true⟩

/-- Settles O20: the check of CONSUME passes in ACTIVE, and the run writes both encoders and the response alone. -/
theorem consumeUpdatesBothEncoders : Obligations.ConsumeUpdatesBothEncoders :=
  fun smp _ hl => exec_consume_active smp hl

/-- Settles O53: from 00, the phases 01, 10 and 11 are one, three and two clockwise quarter-steps away. -/
theorem startupTransitionCounts : Obligations.StartupTransitionCounts := fun W =>
  have hacc := decodeEncoder_zero_acc W
  ⟨hacc 0b00, hacc 0b01, hacc 0b10, hacc 0b11⟩

end Sys2Proof.Machine
end

section
/-! READ and SEEK: a READ accepted, a READ that the producer holds, what SEEK writes and what a READ after it answers:
statements O22, O25, O28, O29, O30 and O31. -/

namespace Sys2Proof.Machine

/-! ## READ and SEEK accepted in ACTIVE (R141, R145, R167) -/

/-- READ runs in ACTIVE. -/
theorem exec_read_active {s : State} (hl : s.life = .active) : exec .read s = .next (startDrain s) :=
  exec_run (by simp [hl]) (by rw [hl]; rfl)

/-- SEEK runs in ACTIVE. -/
theorem exec_seek_active {s : State} (sel : BitVec 2) (v0 v1 : Acc) (hl : s.life = .active) :
    exec (.seek sel v0 v1) s = .next (respondOk (seekBoth sel v0 v1 s)) :=
  exec_run (by simp [hl]) (by rw [hl]; rfl)

/-! ## A READ that never completes (R142, R144) -/

/-- On the block's turn a READ in progress makes a drain step. -/
theorem step_turn_busy {s s' : State} (hm : nextMove s = some (.turn, s')) (hb : s'.drainBusy = true) :
    step s = .next (drainStep s') :=
  (step_turn hm).trans (congrArg _ (blockTurn_busy hb))

/-- A drain step that finds the channel non-empty leaves the READ in progress. -/
theorem drainStep_busy_of_avail {s : State} (hb : s.drainBusy = true) (h : chanAvail s.chan = true) :
    (drainStep s).drainBusy = true := by
  rcases drainStep_cases s with ⟨w, rest, hq, -⟩ | ⟨hq, -⟩
  · exact (drainStep_drainBusy_of_sample hq).trans hb
  · exact absurd (((chanAvail_eq_false s.chan).mpr hq).symm.trans h) (by decide)

/-- Only a reset, or a move of the block's own that finds the channel empty, ends a READ (R142, R143, R210). -/
theorem drainBusy_of_step {s t : State} (h : step s = .next t) (hb : s.drainBusy = true)
    (hav : (∀ w s', nextMove s ≠ some (.sample w, s')) → (∀ ch s', nextMove s ≠ some (.platform ch, s')) →
      chanAvail s.chan = true)
    (hr : ∀ s', nextMove s ≠ some (.reset, s')) : t.drainBusy = true := by
  rcases step_cases s with ⟨hm, hs⟩ | ⟨c, s', hm, -, hs⟩ | ⟨c, s', -, hb', -⟩ | ⟨s', hm, hs⟩ | ⟨w, s', hm, hs⟩ |
    ⟨s', hm, -⟩ | ⟨ch, s', hm, hs⟩
  · rw [blockTurn_busy hb] at hs
    cases hs.symm.trans h
    exact drainStep_busy_of_avail hb (hav (by simp [hm]) (by simp [hm]))
  · cases hs.symm.trans h
    exact drainStep_busy_of_avail hb (hav (by simp [hm]) (by simp [hm]))
  · exact absurd (hb.symm.trans hb') (by decide)
  · obtain ⟨rest, rfl⟩ := nextMove_frame hm
    cases (step_turn_busy hm hb).symm.trans h
    exact drainStep_busy_of_avail hb (hav (by simp [hm]) (by simp [hm]))
  · obtain ⟨rest, rfl⟩ := nextMove_frame hm
    cases hs.symm.trans h
    exact hb
  · exact absurd hm (hr s')
  · obtain ⟨rest, rfl⟩ := nextMove_frame hm
    cases hs.symm.trans h
    exact hb

/-- A READ in progress with a producer that appends `w` before every turn of the block: the producer is next and there
is room, or the block is next and there is a sample. -/
structure ReadHeld (w : Sample) (s : State) : Prop where
  busy : s.drainBusy = true
  cycle : s.cycle = [.sample w, .turn]
  next : (s.script = [] ∧ s.chan.fifo.length < s.chan.depth) ∨
    (s.script = [.turn] ∧ s.chan.fifo ≠ [] ∧ s.chan.fifo.length ≤ s.chan.depth)

/-- Each of the two moves leads to the other: the append fits and leaves a sample, and the block's turn takes one
sample, which leaves room. -/
theorem ReadHeld.step {w : Sample} {s : State} (h : ReadHeld w s) : ∃ t, step s = .next t ∧ ReadHeld w t := by
  obtain ⟨hb, hc, ⟨hs, hroom⟩ | ⟨hs, hne, hfit⟩⟩ := h
  · refine ⟨_, step_sample (nextMove_of_cycle hs hc), hb, hc, .inr ⟨rfl, ?_⟩⟩
    rw [producerStep_chan, chanAppend_room w _ hroom]
    simpa using hroom
  · obtain ⟨v, rest, hq⟩ := List.exists_cons_of_ne_nil hne
    refine ⟨_, step_turn_busy (nextMove_of_script hs) hb, ?_⟩
    rw [drainStep_sample (s := { s with script := [] }) hq]
    rw [hq] at hfit
    exact ⟨hb, hc, .inl ⟨rfl, hfit⟩⟩

/-- However long it runs, the READ is held and nothing is responded. -/
theorem ReadHeld.run_succ {w : Sample} {s : State} (h : ReadHeld w s) (n : Nat) :
    ∃ t, run (n + 1) s = some t ∧ ReadHeld w t ∧ t.rsp = none := by
  induction n generalizing s with
  | zero =>
    obtain ⟨t, hst, ht⟩ := h.step
    exact ⟨t, run_succ_of_step hst 0, ht, (step_kind hst).busySilent ht.busy⟩
  | succ n ih =>
    obtain ⟨t, hst, ht⟩ := h.step
    rw [run_succ_of_step hst]
    exact ih ht

/-! ## What SEEK writes (R145, R146) -/

/-- Selected or not, SEEK writes an encoder's accumulator and nothing else of it. -/
theorem seekEncoder_eq {W : Nat} (selected : Bool) (v : BitVec W) (e : Encoder W) :
    seekEncoder selected v e = { e with acc := if selected then v <<< 2 else e.acc } := by
  cases selected <;> rfl

/-- The delta is looked up under phase and hint, so a SEEK does not move it (R121, R146). -/
@[simp] theorem delta_seekEncoder {W : Nat} (selected : Bool) (v : BitVec W) (e : Encoder W) (p : Phase) :
    delta (seekEncoder selected v e) p = delta e p := by
  rw [seekEncoder_eq]
  rfl

/-- A sample adds the same to every accumulator (R122). -/
theorem accumulate_sub_self {W : Nat} (acc : BitVec W) (d : Int) : accumulate acc d - acc = BitVec.ofInt W d := by
  rw [accumulate, BitVec.add_comm, BitVec.add_sub_cancel]

/-! ## The value that comes back from a SEEK (R140, R147) -/

/-- Shifted up by two and arithmetically down again, a value keeps its low `W - 2` bits; the sign is the highest of
them. -/
theorem position_seekValue {W : Nat} (hW : 4 ≤ W) (v : BitVec W) :
    position (seekValue v) = (v.setWidth (W - 2)).signExtend W := by
  ext k hk
  have hsign : (v <<< 2).msb = (v.setWidth (W - 2)).msb := by
    rw [BitVec.msb_shiftLeft, BitVec.msb_setWidth, BitVec.getMsbD]
    simp [show 2 < W by omega, Nat.sub_right_comm]
  rw [position, seekValue, BitVec.getElem_sshiftRight, BitVec.getElem_signExtend, hsign]
  by_cases hlow : k < W - 2
  · simp [hlow, show 2 + k < W by omega, show ¬ 2 + k ≤ 1 by omega, BitVec.getLsbD_eq_getElem hk]
  · simp [hlow, show ¬ 2 + k < W by omega]

/-- As a signed number the seek value is four times the position, taken modulo `2 ^ W` (R145). -/
theorem seekValue_toInt {W : Nat} (v : BitVec W) : (seekValue v).toInt = (v.toInt * 4).bmod (2 ^ W) := by
  rw [seekValue, BitVec.toInt_shiftLeft, Nat.shiftLeft_eq, Nat.cast_mul, ← Int.bmod_mul_bmod,
    ← BitVec.toInt_eq_toNat_bmod]
  rfl

/-- Four times a value of `W - 2` bits fits the accumulator, so the value comes back. -/
theorem position_seekValue_of_inRange {W : Nat} (hW : 4 ≤ W) {v : BitVec W} (hlo : -(2 ^ (W - 3) : Int) ≤ v.toInt)
    (hhi : v.toInt ≤ 2 ^ (W - 3) - 1) : position (seekValue v) = v := by
  obtain ⟨-, hhalf, -⟩ := two_pow_width hW
  have hfour : (seekValue v).toInt = v.toInt * 4 := by
    rw [seekValue_toInt, ← BitVec.toInt_ofInt, BitVec.toInt_ofInt_eq_self (by omega) (by omega) (by omega)]
  refine BitVec.eq_of_toInt_eq ?_
  rw [position_toInt, hfour, Int.mul_ediv_cancel _ (by decide)]

/-! ## A SEEK and then a READ (R61, R143, R215) -/

/-- With no sample arriving, SEEK and READ end after one step for the SEEK, one that accepts the READ, one for each
buffered sample and one that completes: the FIFO is drained on top of what the SEEK wrote. -/
theorem run_seek_read {s : State} {sel : BitVec 2} {v0 v1 : Acc} (hwf : (Instr.seek sel v0 v1).wellFormed = true)
    (hl : s.life = .active) (hb : s.drainBusy = false) (hc : s.cycle = [])
    (hs : s.script = [hostMove (.seek sel v0 v1), hostMove .read]) :
    run (s.chan.fifo.length + 3) s = some (drained (respondOk (seekBoth sel v0 v1 { s with script := [] }))) := by
  let u := respondOk (seekBoth sel v0 v1 { s with script := [hostMove .read] })
  have hseek : step s = .next u := step_hostMove_active hl hb hs (encodedInstructionDecodesBack _ hwf) rfl
  have hread : run (s.chan.fifo.length + 2) u = some (drained { u with script := [] }) :=
    run_read (s := u) (rest := []) hl hb rfl (by rw [show u.cycle = [] from hc]; trivial)
  exact (run_succ_of_step hseek _).trans hread

/-- When nothing is drained, the response holds the positions of the accumulators as the SEEK left them. -/
theorem run_seek_read_of_empty {s : State} {sel : BitVec 2} {v0 v1 : Acc}
    (hwf : (Instr.seek sel v0 v1).wellFormed = true) (hl : s.life = .active) (hb : s.drainBusy = false)
    (hq : s.chan.fifo = []) (hc : s.cycle = []) (hs : s.script = [hostMove (.seek sel v0 v1), hostMove .read]) :
    ∃ t, run 3 s = some t ∧ t.rsp = some ⟨.ok, position (seekEncoder (sel.getLsbD 0) v0 s.enc0).acc,
      position (seekEncoder (sel.getLsbD 1) v1 s.enc1).acc⟩ := by
  have hrun := run_seek_read hwf hl hb hc hs
  rw [hq] at hrun
  refine ⟨_, hrun, ?_⟩
  rw [drained_of_empty]
  · rfl
  · exact hq

/-! ## The statements -/

/-- Settles O25: only a reset or a drain step on an empty FIFO frees the port; and a producer and a block that take
turns come to neither. -/
theorem readNeverCompletesWhileSamplesKeepComing : Obligations.ReadNeverCompletesWhileSamplesKeepComing := by
  refine ⟨fun σ h0 hstep hav hr => ?_, fun s w hb hs hc hroom n => ?_⟩
  · have hbusy : ∀ n, (σ n).drainBusy = true := by
      intro n
      induction n with
      | zero => exact h0
      | succ n ih => exact drainBusy_of_step (hstep n) ih (hav n) (hr n)
    exact fun n => ⟨hbusy n, (step_kind (hstep n)).busySilent (hbusy (n + 1))⟩
  · obtain ⟨t, hrun, ht, hrsp⟩ := ReadHeld.run_succ ⟨hb, hc, .inl ⟨hs, hroom⟩⟩ n
    exact ⟨t, hrun, ht.busy, hrsp⟩

/-- Settles O29: the READ reports the accumulator that the SEEK wrote, shifted down again, and the other as it was. -/
theorem seekThenReadRoundTrip : Obligations.SeekThenReadRoundTrip := by
  refine ⟨fun W hW v => ⟨position_seekValue hW v, position_seekValue_of_inRange hW⟩, fun s v hl hb hq hc => ?_⟩
  rw [← position_seekValue Config.four_le_accWidth v]
  refine ⟨run_seek_read_of_empty ?_ hl hb hq hc, run_seek_read_of_empty ?_ hl hb hq hc⟩ <;>
    simp [Instr.wellFormed, seekPortOk]

/-- Settles O30: a SEEK keeps phase and hint of each encoder, and they decide phase, hint and delta of the sample. -/
theorem seekKeepsPhaseAndHint : Obligations.SeekKeepsPhaseAndHint := by
  intro sel v0 v1 w s t u v hl ht hu hv
  cases (exec_seek_active sel v0 v1 hl).symm.trans ht
  cases (exec_consume_active w hl).symm.trans hv
  cases (exec_consume_active w (s := respondOk (seekBoth sel v0 v1 s)) hl).symm.trans hu
  refine ⟨⟨seekEncoder_prev .., seekEncoder_hint .., seekEncoder_prev .., seekEncoder_hint ..⟩, ?_, ?_⟩
  · simp [seekEncoder_hint, delta_seekEncoder]
  · simp [accumulate_sub_self, delta_seekEncoder]

/-- Settles O31: the SEEK leaves the FIFO to the READ, which drains it on top of the accumulators the SEEK wrote. -/
theorem seekDoesNotDrainTheChannel : Obligations.SeekDoesNotDrainTheChannel := fun _ _ _ hl hb hc hs =>
  ⟨_, run_seek_read rfl hl hb hc hs, rfl⟩

/-- Settles O22: the check of READ passes in ACTIVE, and the run writes the port and the response alone. -/
theorem readMakesThePortBusy : Obligations.ReadMakesThePortBusy := fun _ hl => exec_read_active hl

/-- Settles O28: the check of SEEK passes in ACTIVE, and the run writes the accumulators and the response alone. -/
theorem seekOverwritesTheSelectedAccumulators : Obligations.SeekOverwritesTheSelectedAccumulators := by
  intro sel v0 v1 s hl
  rw [exec_seek_active sel v0 v1 hl, seekBoth, seekEncoder_eq, seekEncoder_eq]
  rfl

end Sys2Proof.Machine
end

section
/-! The lifecycle commands: the fault cells of R167, NOP, and both answers of the channel to CONFIGURE and to RELEASE:
statements O21, O33, O34, O35, O37, O38 and O39. -/

namespace Sys2Proof.Machine

/-! ## An instruction in a given lifecycle state (R167, R184) -/

/-- An instruction that its lifecycle state admits runs. -/
theorem exec_admitted {i : Instr} {s : State} {l : Life} (hl : s.life = l) (hne : l ≠ .faulted)
    (hc : lifecycleCheck i l = none) : exec i s = .next (runInstr i s) := by
  subst hl
  exact exec_run hne hc

/-- An instruction whose lifecycle check fails raises that fault under its own header (R180). -/
theorem exec_fault {i : Instr} {s : State} {l : Life} {cause : Cause} (hl : s.life = l) (hne : l ≠ .faulted)
    (hc : lifecycleCheck i l = some cause) : exec i s = .next (raiseFault cause (encodeHeader i) s) := by
  subst hl
  rw [exec_eq_checked, checked_fault hne hc]

/-! ## CONFIGURE by the channel's answer (R161 to R163) -/

/-- CONFIGURE runs where there is no decoder, before the first one and after a release (R167). -/
theorem exec_configure_run {s : State} (l0 l1 l2 l3 : LineId) (hl : s.life = .unconfigured ∨ s.life = .released) :
    exec (.configure l0 l1 l2 l3) s = .next (construct ⟨l0, l1, l2, l3⟩ s) := by
  rcases hl with hl | hl
  · exact exec_admitted hl (by decide) rfl
  · exact exec_admitted hl (by decide) rfl

theorem construct_accepted {l : Lines} {s : State} (h : validateAnswer s.chan l = true) :
    construct l s = respondOk { initDecoder s with
      life := .active, chan := { drawnValidate s.chan with bound := some l } } := by
  rcases construct_cases l s with ⟨-, e⟩ | ⟨h', -⟩
  · exact e
  · exact absurd (h.symm.trans h') (by decide)

theorem construct_rejected {l : Lines} {s : State} (h : validateAnswer s.chan l = false) :
    construct l s = respond .configError 0 0 { s with chan := drawnValidate s.chan } := by
  rcases construct_cases l s with ⟨h', -⟩ | ⟨-, e⟩
  · exact absurd (h.symm.trans h') (by decide)
  · exact e

/-! ## RELEASE by the lifecycle state and the channel's answer (R164 to R166) -/

/-- RELEASE of a live decoder asks the channel (R164). -/
theorem exec_release_active {s : State} (hl : s.life = .active) : exec .release s = .next (tearDown s) := by
  have hrun : releaseOrKeep s = tearDown s := by
    rcases releaseOrKeep_cases s with ⟨hl', -⟩ | ⟨-, e⟩
    · exact absurd (hl.symm.trans hl') (by decide)
    · exact e
  rw [← hrun]
  exact exec_admitted hl (by decide) rfl

/-- RELEASE of a decoder already released only responds (R165). -/
theorem exec_release_released {s : State} (hl : s.life = .released) : exec .release s = .next (respondOk s) := by
  have hrun : releaseOrKeep s = respondOk s := by
    rcases releaseOrKeep_cases s with ⟨-, e⟩ | ⟨hl', -⟩
    · exact e
    · exact absurd hl hl'
  rw [← hrun]
  exact exec_admitted hl (by decide) rfl

theorem tearDown_succeeds {s : State} (h : releaseAnswer s.chan = true) :
    tearDown s = respondOk { s with chan := chanReleased (drawnRelease s.chan), life := .released } := by
  rcases tearDown_cases s with ⟨-, e⟩ | ⟨h', -⟩
  · exact e
  · exact absurd (h.symm.trans h') (by decide)

theorem tearDown_fails {s : State} (h : releaseAnswer s.chan = false) :
    tearDown s = raiseFault .teardownFailure 0x0005 { s with chan := chanReleaseFailed (drawnRelease s.chan) } := by
  rcases tearDown_cases s with ⟨h', -⟩ | ⟨-, e⟩
  · exact absurd (h.symm.trans h') (by decide)
  · exact e

/-! ## The statements -/

/-- Settles O21: each cell is the command's lifecycle check in that state, and the fault entry is the whole effect. -/
theorem lifecycleFaultsAreTaken : Obligations.LifecycleFaultsAreTaken := by
  intro s faults
  refine ⟨fun hl => ?unconfigured, fun hl => ?released, fun hl => ?active⟩
  case unconfigured =>
    have notConfigured (i : Instr) (hc : lifecycleCheck i .unconfigured = some .notConfigured) : faults 3 i :=
      exec_fault hl (by decide) hc
    exact ⟨fun _ => notConfigured _ rfl, notConfigured _ rfl, fun _ _ _ => notConfigured _ rfl, notConfigured _ rfl⟩
  case released =>
    have useAfterRelease (i : Instr) (hc : lifecycleCheck i .released = some .useAfterRelease) : faults 4 i :=
      exec_fault hl (by decide) hc
    exact ⟨fun _ => useAfterRelease _ rfl, useAfterRelease _ rfl, fun _ _ _ => useAfterRelease _ rfl⟩
  case active =>
    have alreadyActive (i : Instr) (hc : lifecycleCheck i .active = some .alreadyActive) : faults 5 i :=
      exec_fault hl (by decide) hc
    exact fun _ _ _ _ => alreadyActive _ rfl

/-- Settles O33: NOP has no lifecycle check, so outside FAULTED it runs, and its run is the response alone. -/
theorem nopOnlyResponds : Obligations.NopOnlyResponds := fun s hl =>
  have hc : lifecycleCheck .nop s.life = none := by cases s.life <;> rfl
  exec_run hl hc

/-- Settles O34: the channel that answers true is bound to the lines and otherwise only counts the draw. -/
theorem configureConstructsADecoder : Obligations.ConfigureConstructsADecoder := by
  intro l0 l1 l2 l3 s hl hv
  refine ⟨{ drawnValidate s.chan with bound := some ⟨l0, l1, l2, l3⟩ }, ?_, rfl, drawnValidate_fifo _,
    drawnValidate_depth _⟩
  rw [exec_configure_run l0 l1 l2 l3 hl, construct_accepted hv]
  rfl

/-- Settles O35: the channel that answers false only counts the draw. -/
theorem rejectedConfigureChangesNoRegister : Obligations.RejectedConfigureChangesNoRegister := by
  intro l0 l1 l2 l3 s hl hv
  refine ⟨drawnValidate s.chan, ?_, drawnValidate_bound _, drawnValidate_fifo _, drawnValidate_depth _⟩
  rw [exec_configure_run l0 l1 l2 l3 hl, construct_rejected hv]
  rfl

/-- Settles O37: the teardown of a channel that releases. -/
theorem releaseTearsTheDecoderDown : Obligations.ReleaseTearsTheDecoderDown := by
  intro s hl hr
  refine ⟨chanReleased (drawnRelease s.chan), ?_, rfl, rfl⟩
  rw [exec_release_active hl, tearDown_succeeds hr]
  rfl

/-- Settles O38: the run of a repeated RELEASE is the response alone. -/
theorem repeatedReleaseDoesNothing : Obligations.RepeatedReleaseDoesNothing := fun _ hl => exec_release_released hl

/-- Settles O39: the teardown of a channel that does not release, whose FIFO is cut to the depth whatever it becomes. -/
theorem failedReleaseFaults : Obligations.FailedReleaseFaults := by
  intro s hl hr
  refine ⟨chanReleaseFailed (drawnRelease s.chan), ?_, ?_, chanReleaseFailed_bounded _⟩
  · rw [exec_release_active hl, tearDown_fails hr]
    rfl
  · rw [chanReleaseFailed_depth, drawnRelease_depth]

end Sys2Proof.Machine
end

section
/-! FAULTED, and the reference channel's predicate: O9 and O36. -/

namespace Sys2Proof.Machine

/-! ## A command in FAULTED (R184, R185) -/

/-- In FAULTED no instruction reaches its lifecycle check or its run (R184, R185). -/
theorem exec_faulted {s : State} (i : Instr) (hl : s.life = .faulted) : exec i s = .next (respondFaulted s) := by
  rw [exec_eq_checked, checked_faulted hl]

/-- In FAULTED a header of no instruction raises no fault of its own (R184, R185). -/
theorem rejectHeader_faulted {s : State} (cause : Cause) (h : Header) (hl : s.life = .faulted) :
    rejectHeader cause h s = respondFaulted s :=
  checked_faulted hl

/-- In FAULTED every accepted command is turned away, whatever it decodes to (R75, R185). -/
theorem acceptCommand_faulted {s : State} (c : Command) (hl : s.life = .faulted) :
    acceptCommand c s = .next (respondFaulted s) := by
  rcases acceptCommand_cases c s with ⟨i, -, ha⟩ | ⟨-, ha⟩ | ⟨-, ha⟩ <;> rw [ha]
  · exact exec_faulted i hl
  · rw [rejectHeader_faulted _ _ hl]
  · rw [rejectHeader_faulted _ _ hl]

/-! ## The reference channel (R191) -/

theorem referenceSequential_iff {L : Nat} (l : LinesOf L) :
    referenceSequential l = true ↔
      l.l1.toNat = l.l0.toNat + 1 ∧ l.l2.toNat = l.l0.toNat + 2 ∧ l.l3.toNat = l.l0.toNat + 3 := by
  simp only [referenceSequential, Bool.and_eq_true, beq_iff_eq, and_assoc]

/-- The reference channel answers by its predicate, not by a drawn value (R191). -/
theorem validateAnswer_reference {ch : Channel} (l : Lines) (h : ch.validate = .reference) :
    validateAnswer ch l = referenceSequential l := by
  simp [validateAnswer, h]

/-! ## The statements -/

/-- Settles O9: the check of FAULTED comes before the instruction's own checks and before the encoding faults. -/
theorem faultedBlockOnlyAnswersFault : Obligations.FaultedBlockOnlyAnswersFault :=
  ⟨fun i _ hl => exec_faulted i hl, fun _ c _ hs hb hl =>
    (step_command_accept (nextMove_of_script hs) hb).trans (acceptCommand_faulted c hl)⟩

/-- Settles O36: four consecutive lines have a third and a fourth that are adjacent. -/
theorem referenceChannelWantsConsecutiveLines : Obligations.ReferenceChannelWantsConsecutiveLines := by
  intro ch l hv
  rw [validateAnswer_reference l hv]
  refine ⟨referenceSequential_iff l, fun hgap => Bool.eq_false_iff.mpr fun hseq => hgap ?_⟩
  obtain ⟨-, h2, h3⟩ := (referenceSequential_iff l).mp hseq
  omega

end Sys2Proof.Machine
end

section
/-! Commands after a release, and the boot sequence: O51 and O54. -/

namespace Sys2Proof.Machine

/-! ## After RELEASE (R167, R219) -/

/-- In RELEASED the lifecycle check lets NOP, RELEASE and CONFIGURE through and stops the commands that need a decoder
(R167). -/
theorem lifecycleCheck_released_cases (i : Instr) :
    (lifecycleCheck i .released = none ∧ (i = .nop ∨ i = .release ∨ ∃ l0 l1 l2 l3, i = .configure l0 l1 l2 l3)) ∨
    (lifecycleCheck i .released = some .useAfterRelease ∧
      ¬(i = .nop ∨ i = .release ∨ ∃ l0 l1 l2 l3, i = .configure l0 l1 l2 l3)) := by
  cases i with
  | nop => exact .inl ⟨rfl, .inl rfl⟩
  | release => exact .inl ⟨rfl, .inr (.inl rfl)⟩
  | configure l0 l1 l2 l3 => exact .inl ⟨rfl, .inr (.inr ⟨l0, l1, l2, l3, rfl⟩)⟩
  | consume | read | seek => exact .inr ⟨rfl, by simp⟩

/-- An instruction that RELEASED admits does not fault: the one run that can, RELEASE's, does not ask the channel
again (R165, R166). -/
theorem runInstr_released_life {i : Instr} {s : State} (hl : s.life = .released)
    (hc : lifecycleCheck i .released = none) : (runInstr i s).life ≠ .faulted := by
  have hne : s.life ≠ .faulted := by simp [hl]
  rcases (runInstr_outcome s hne (hl ▸ hc)).record hne with ⟨h, -⟩ | ⟨rfl, -⟩
  · exact h
  · rcases releaseOrKeep_cases s with ⟨-, h⟩ | ⟨h, -⟩
    · rwa [runInstr, h, respondOk_life]
    · exact absurd hl h

/-! ## A host's command taken from the script, in any lifecycle state -/

/-- A host's well-formed instruction, next in the script with the port free, is executed (R57, R75, R80). -/
theorem step_hostMove {s : State} {i : Instr} {rest : List Event} (hwf : i.wellFormed = true)
    (hb : s.drainBusy = false) (hs : s.script = hostMove i :: rest) : step s = exec i { s with script := rest } :=
  step_command_free (nextMove_of_script hs) hb (encodedInstructionDecodesBack i hwf)

/-! ## The boot sequence (R210, R213) -/

/-- What a construction on accepted lines right after a reset leaves, with the moves `rest` still to come: the encoders
at their construction values, the FIFO as it was. -/
def booted (l : Lines) (rest : List Event) (s : State) : State :=
  respondOk { hwReset { s with script := rest } with
    life := .active, chan := { drawnValidate s.chan with bound := some l } }

/-- Reset leaves the block UNCONFIGURED whatever it held, so the CONFIGURE that follows constructs a decoder. -/
theorem run_reset_configure {s : State} {l0 l1 l2 l3 : LineId} {rest : List Event}
    (hv : validateAnswer s.chan ⟨l0, l1, l2, l3⟩ = true)
    (hs : s.script = .reset :: hostMove (.configure l0 l1 l2 l3) :: rest) :
    run 2 s = some (booted ⟨l0, l1, l2, l3⟩ rest s) := by
  let u := hwReset { s with script := hostMove (.configure l0 l1 l2 l3) :: rest }
  have hreset : step s = .next u := step_reset (nextMove_of_script hs)
  have hconf : step u = .next (booted ⟨l0, l1, l2, l3⟩ rest s) := by
    rw [step_hostMove (s := u) rfl rfl rfl, exec_configure_run l0 l1 l2 l3 (.inl rfl),
      construct_accepted (s := { u with script := rest }) hv]
    rfl
  rw [run_succ_of_step hreset, run_succ_of_step hconf]
  rfl

/-- With no sample arriving, READ and SEEK end after the steps of the READ and one for the SEEK, which overwrites the
accumulators that the drain left. -/
theorem run_read_seek {s : State} {sel : BitVec 2} {v0 v1 : Acc} (hwf : (Instr.seek sel v0 v1).wellFormed = true)
    (hl : s.life = .active) (hb : s.drainBusy = false)
    (hs : s.script = [hostMove .read, hostMove (.seek sel v0 v1)]) :
    run (s.chan.fifo.length + 3) s = some (respondOk (seekBoth sel v0 v1 { drained s with script := [] })) := by
  let u := drained { s with script := [hostMove (.seek sel v0 v1)] }
  have hread : run (s.chan.fifo.length + 2) s = some u := run_read hl hb hs trivial
  have hseek : step u = .next (respondOk (seekBoth sel v0 v1 { u with script := [] })) := by
    rw [step_hostMove (s := u) hwf rfl rfl]
    exact exec_seek_active sel v0 v1 hl
  rw [run_add_of_run hread 1, run_succ_of_step hseek]
  rfl

/-- An encoder remembers the last phase it was fed (R124). -/
theorem feed_concat_prev {W : Nat} (ps : List Phase) (p : Phase) (e : Encoder W) : (feed (ps ++ [p]) e).prev = p := by
  simp [feed, decodeEncoder]

/-- SEEK to 0 leaves an accumulator of 0 (R145). -/
@[simp] theorem seekEncoder_zero_acc {W : Nat} (e : Encoder W) : (seekEncoder true 0 e).acc = 0 := by
  simp [seekEncoder_eq]

/-! ## The statements -/

/-- Settles O51: the lifecycle check decides, since nothing that passes it in RELEASED faults later. -/
theorem onlyThreeCommandsRunAfterRelease : Obligations.OnlyThreeCommandsRunAfterRelease := by
  intro i s hl
  rcases lifecycleCheck_released_cases i with ⟨hc, hi⟩ | ⟨hc, hi⟩
  · exact ⟨_, exec_admitted hl (by decide) hc, iff_of_true (runInstr_released_life hl hc) hi⟩
  · exact ⟨_, exec_fault hl (by decide) hc, iff_of_false (by simp) hi⟩

/-- Settles O54: the construction starts both encoders afresh on the FIFO as the reset found it, the READ drains that
FIFO down to its last sample, and the SEEK puts 0 in place of what the drain counted. -/
theorem bootSequenceAbsorbsTheStartup : Obligations.BootSequenceAbsorbsTheStartup := by
  intro s l0 l1 l2 l3 ws w hv hq _ hs
  let u := booted ⟨l0, l1, l2, l3⟩ [hostMove .read, hostMove (.seek 3 0 0)] s
  have hfifo : u.chan.fifo = s.chan.fifo := drawnValidate_fifo s.chan
  have hboot : run 2 s = some u := run_reset_configure hv hs
  have hrest : run (s.chan.fifo.length + 3) u = some (respondOk (seekBoth 3 0 0 { drained u with script := [] })) := by
    rw [← hfifo]
    exact run_read_seek rfl rfl rfl rfl
  have hrun := (run_add_of_run hboot (s.chan.fifo.length + 3)).trans hrest
  rw [show 2 + (s.chan.fifo.length + 3) = s.chan.fifo.length + 5 by omega] at hrun
  refine ⟨_, hrun, rfl, rfl, seekEncoder_zero_acc _, seekEncoder_zero_acc _, ?_, ?_, rfl⟩ <;>
    simp [drained, hfifo, hq, feed_concat_prev]

end Sys2Proof.Machine
end
